-- ==== Sys2Proof/Word.lean ====
section
/-! DEFINITION. The word types of MBCORE (00_scope.md R7, R9): all values are unsigned bit vectors whose bit 0 is the
least significant bit. -/

namespace Sys2Proof

/-- A byte of a frame, of a response, or an 8-bit operand field (R7). -/
abbrev Byte := BitVec 8

/-- A 16-bit value: the CRC register, a RegisterAddress, a data field (R5, R141). -/
abbrev Half := BitVec 16

/-- A command word, format CW32 (30_encoding.md R81). -/
abbrev CmdWord := BitVec 32

/-- A response word, format RW64 (30_encoding.md R86). -/
abbrev RspWord := BitVec 64

/-- The payload of a response word (30_encoding.md R86). -/
abbrev Payload := BitVec 48

/-- A request frame as one number, format RQF64: byte 0 in bits 63:56, byte 7 in bits 7:0 (30_encoding.md R90). -/
abbrev FrameWord := BitVec 64

end Sys2Proof
end

