-- ==== Sys2Proof/Syntax.lean ====
section
/-! DEFINITION. The instructions: one constructor per row of spec/opcode_table.json, the 17 operations of
30_encoding.md R80 and the four request-frame shapes of R92. -/

namespace Sys2Proof

/-- Every row of the opcode table. Operands are the operand fields of R82 and the open fields of R92, at their widths. -/
inductive Instr where
  /-- CRC.INIT (R124) -/
  | crcInit
  /-- CRC.UPD b (R125) -/
  | crcUpd (b : Byte)
  /-- CRC.GET (R126) -/
  | crcGet
  /-- MAP.RLY ch, act (R145) -/
  | mapRly (ch act : Byte)
  /-- MAP.DIN ch (R146) -/
  | mapDin (ch : Byte)
  /-- MAP.OST ch (R147) -/
  | mapOst (ch : Byte)
  /-- BLD.RLY dev, ch, act (R165) -/
  | bldRly (dev ch act : Byte)
  /-- BLD.DIN dev, ch (R166) -/
  | bldDin (dev ch : Byte)
  /-- BLD.OST dev, ch (R167) -/
  | bldOst (dev ch : Byte)
  /-- TX.RD i (R168) -/
  | txRd (i : BitVec 3)
  /-- RX.CLR (R182) -/
  | rxClr
  /-- RX.PUSH b (R183) -/
  | rxPush (b : Byte)
  /-- DEC.RLY (R185) -/
  | decRly
  /-- DEC.DIN (R188) -/
  | decDin
  /-- DEC.OST (R189) -/
  | decOst
  /-- MODE s (R201) -/
  | mode (s : BitVec 1)
  /-- STAT (R202) -/
  | stat
  /-- FRAME.RLY.ON (R92): `dd 06 00 0n 01 00 kk kk` -/
  | frameRlyOn (dev : Byte) (n : BitVec 4) (crcLo crcHi : Byte)
  /-- FRAME.RLY.OFF (R92): `dd 06 00 0n 02 00 kk kk` -/
  | frameRlyOff (dev : Byte) (n : BitVec 4) (crcLo crcHi : Byte)
  /-- FRAME.DIN.RD (R92): `dd 03 00 8n 00 01 kk kk` -/
  | frameDinRd (dev : Byte) (n : BitVec 4) (crcLo crcHi : Byte)
  /-- FRAME.OST.RD (R92): `dd 03 00 0m 00 01 kk kk` -/
  | frameOstRd (dev : Byte) (m : BitVec 4) (crcLo crcHi : Byte)
  deriving DecidableEq, Repr

/-- What the decoder reads: a command word (format CW32, R81) or a request frame (format RQF64, R90). -/
inductive Wire where
  | cw32 (w : CmdWord)
  | rqf64 (f : FrameWord)
  deriving DecidableEq, Repr

end Sys2Proof
end

