-- ==== Sys2Proof/Decode.lean ====
section
/-! DEFINITION. The decoder, total on every command word and every eight bytes, and after it the encoder, both from the
encoding tables of 30_encoding.md (R81 to R83 for command words, R90 and R92 for request frames). -/

namespace Sys2Proof

/-! ### The fields of a command word (30_encoding.md R81) -/

/-- `OP`, bits 31:28. -/
def opField (w : CmdWord) : BitVec 4 := w.extractLsb' 28 4
/-- `RSV`, bits 27:26. -/
def rsvField (w : CmdWord) : BitVec 2 := w.extractLsb' 26 2
/-- `KIND`, bits 25:24 (R83: 1 RLY, 2 DIN, 3 OST, 0 no kind). -/
def kindField (w : CmdWord) : BitVec 2 := w.extractLsb' 24 2
/-- `DEV`, bits 23:16. -/
def devField (w : CmdWord) : Byte := w.extractLsb' 16 8
/-- `CH`, bits 15:8. -/
def chField (w : CmdWord) : Byte := w.extractLsb' 8 8
/-- `ARG`, bits 7:0. -/
def argField (w : CmdWord) : Byte := w.extractLsb' 0 8

/-- Byte `k` of a request frame written as one number, byte 0 in bits 63:56 (R90). -/
def frameByte (f : FrameWord) (k : Nat) : Byte := f.extractLsb' (56 - 8 * k) 8

/-! ### The decoder -/

/-- Why a wire word is no instruction. -/
inductive Reject where
  /-- a command word that matches no pattern of R82 (R94): the block answers it with IllegalCommand (60_exceptions.md R243) -/
  | illegalCommand
  /-- eight bytes that are none of the four shapes of R92 -/
  | notRequestFrame
  deriving DecidableEq, Repr

/-- What the decoder answers. -/
inductive Decoded where
  | instr (i : Instr)
  | reject (r : Reject)
  deriving DecidableEq, Repr

/-- The command-word patterns of R82, field by field: an unused field must be 0 and KIND is there exactly where a kind is taken
(R94). -/
def decodeFields (op : BitVec 4) (rsv kind : BitVec 2) (dev ch arg : Byte) : Decoded :=
  if rsv ≠ 0 then .reject .illegalCommand
  else if op = 0x1 ∧ kind = 0 ∧ dev = 0 ∧ ch = 0 ∧ arg = 0 then .instr .crcInit
  else if op = 0x2 ∧ kind = 0 ∧ dev = 0 ∧ ch = 0 then .instr (.crcUpd arg)
  else if op = 0x3 ∧ kind = 0 ∧ dev = 0 ∧ ch = 0 ∧ arg = 0 then .instr .crcGet
  else if op = 0x4 ∧ kind = 1 ∧ dev = 0 then .instr (.mapRly ch arg)
  else if op = 0x4 ∧ kind = 2 ∧ dev = 0 ∧ arg = 0 then .instr (.mapDin ch)
  else if op = 0x4 ∧ kind = 3 ∧ dev = 0 ∧ arg = 0 then .instr (.mapOst ch)
  else if op = 0x5 ∧ kind = 1 then .instr (.bldRly dev ch arg)
  else if op = 0x5 ∧ kind = 2 ∧ arg = 0 then .instr (.bldDin dev ch)
  else if op = 0x5 ∧ kind = 3 ∧ arg = 0 then .instr (.bldOst dev ch)
  else if op = 0x6 ∧ kind = 0 ∧ dev = 0 ∧ ch = 0 ∧ arg.extractLsb' 3 5 = 0 then .instr (.txRd (arg.extractLsb' 0 3))
  else if op = 0x7 ∧ kind = 0 ∧ dev = 0 ∧ ch = 0 ∧ arg = 0 then .instr .rxClr
  else if op = 0x8 ∧ kind = 0 ∧ dev = 0 ∧ ch = 0 then .instr (.rxPush arg)
  else if op = 0x9 ∧ kind = 1 ∧ dev = 0 ∧ ch = 0 ∧ arg = 0 then .instr .decRly
  else if op = 0x9 ∧ kind = 2 ∧ dev = 0 ∧ ch = 0 ∧ arg = 0 then .instr .decDin
  else if op = 0x9 ∧ kind = 3 ∧ dev = 0 ∧ ch = 0 ∧ arg = 0 then .instr .decOst
  else if op = 0xA ∧ kind = 0 ∧ dev = 0 ∧ ch = 0 ∧ arg.extractLsb' 1 7 = 0 then .instr (.mode (arg.extractLsb' 0 1))
  else if op = 0xB ∧ kind = 0 ∧ dev = 0 ∧ ch = 0 ∧ arg = 0 then .instr .stat
  else .reject .illegalCommand

/-- A command word, decoded (R82, R94). -/
def decodeCommand (w : CmdWord) : Decoded :=
  decodeFields (opField w) (rsvField w) (kindField w) (devField w) (chField w) (argField w)

/-- The four request-frame shapes of R92: function code, register address high byte, high nibble of its low byte, and the two
data bytes are fixed; the device byte, the low nibble of byte 3 and the CRC bytes are open. -/
def decodeFrameFields (dev fc addrHi : Byte) (addrTop n : BitVec 4) (dataHi dataLo crcLo crcHi : Byte) : Decoded :=
  if fc = 0x06 ∧ addrHi = 0 ∧ addrTop = 0 ∧ dataHi = 0x01 ∧ dataLo = 0 then .instr (.frameRlyOn dev n crcLo crcHi)
  else if fc = 0x06 ∧ addrHi = 0 ∧ addrTop = 0 ∧ dataHi = 0x02 ∧ dataLo = 0 then .instr (.frameRlyOff dev n crcLo crcHi)
  else if fc = 0x03 ∧ addrHi = 0 ∧ addrTop = 8 ∧ dataHi = 0 ∧ dataLo = 0x01 then .instr (.frameDinRd dev n crcLo crcHi)
  else if fc = 0x03 ∧ addrHi = 0 ∧ addrTop = 0 ∧ dataHi = 0 ∧ dataLo = 0x01 then .instr (.frameOstRd dev n crcLo crcHi)
  else .reject .notRequestFrame

/-- A request frame, decoded (R92). -/
def decodeFrame (f : FrameWord) : Decoded :=
  decodeFrameFields (frameByte f 0) (frameByte f 1) (frameByte f 2) ((frameByte f 3).extractLsb' 4 4)
    ((frameByte f 3).extractLsb' 0 4) (frameByte f 4) (frameByte f 5) (frameByte f 6) (frameByte f 7)

/-- The decoder: total, and what it does not read it rejects by name. -/
def decode : Wire → Decoded
  | .cw32 w => decodeCommand w
  | .rqf64 f => decodeFrame f

/-- The wire word a table row's bits stand for: 32 bits are a command word, 64 bits a request frame numbered as the table
numbers it (R90). The block has no byte-addressed instruction memory, so no byte order enters. -/
def wireOfTableWord (nbits w : Nat) : Wire :=
  if nbits ≤ 32 then .cw32 (BitVec.ofNat 32 (w % 2 ^ nbits)) else .rqf64 (BitVec.ofNat 64 (w % 2 ^ nbits))

/-- The instruction the decoder reads from a row's bits, numbered as spec/opcode_table.json numbers them. -/
def decodeTableWord (nbits w : Nat) : Option Instr :=
  match decode (wireOfTableWord nbits w) with
  | .instr i => some i
  | .reject _ => none

/-! ### The encoder -/

/-- A command word from its six fields (R81). -/
def packCommand (op : BitVec 4) (rsv kind : BitVec 2) (dev ch arg : Byte) : CmdWord :=
  op ++ rsv ++ kind ++ dev ++ ch ++ arg

/-- A request frame from its eight bytes, byte 0 in bits 63:56 (R90). -/
def packFrame (b0 b1 b2 b3 b4 b5 b6 b7 : Byte) : FrameWord :=
  b0 ++ b1 ++ b2 ++ b3 ++ b4 ++ b5 ++ b6 ++ b7

/-- The encoder, from the patterns of R82 and the shapes of R92. -/
def encode : Instr → Wire
  | .crcInit => .cw32 (packCommand 0x1 0 0 0 0 0)
  | .crcUpd b => .cw32 (packCommand 0x2 0 0 0 0 b)
  | .crcGet => .cw32 (packCommand 0x3 0 0 0 0 0)
  | .mapRly ch act => .cw32 (packCommand 0x4 0 1 0 ch act)
  | .mapDin ch => .cw32 (packCommand 0x4 0 2 0 ch 0)
  | .mapOst ch => .cw32 (packCommand 0x4 0 3 0 ch 0)
  | .bldRly dev ch act => .cw32 (packCommand 0x5 0 1 dev ch act)
  | .bldDin dev ch => .cw32 (packCommand 0x5 0 2 dev ch 0)
  | .bldOst dev ch => .cw32 (packCommand 0x5 0 3 dev ch 0)
  | .txRd i => .cw32 (packCommand 0x6 0 0 0 0 (0#5 ++ i))
  | .rxClr => .cw32 (packCommand 0x7 0 0 0 0 0)
  | .rxPush b => .cw32 (packCommand 0x8 0 0 0 0 b)
  | .decRly => .cw32 (packCommand 0x9 0 1 0 0 0)
  | .decDin => .cw32 (packCommand 0x9 0 2 0 0 0)
  | .decOst => .cw32 (packCommand 0x9 0 3 0 0 0)
  | .mode s => .cw32 (packCommand 0xA 0 0 0 0 (0#7 ++ s))
  | .stat => .cw32 (packCommand 0xB 0 0 0 0 0)
  | .frameRlyOn dev n lo hi => .rqf64 (packFrame dev 0x06 0 (0#4 ++ n) 0x01 0 lo hi)
  | .frameRlyOff dev n lo hi => .rqf64 (packFrame dev 0x06 0 (0#4 ++ n) 0x02 0 lo hi)
  | .frameDinRd dev n lo hi => .rqf64 (packFrame dev 0x03 0 (8#4 ++ n) 0 0x01 lo hi)
  | .frameOstRd dev m lo hi => .rqf64 (packFrame dev 0x03 0 (0#4 ++ m) 0 0x01 lo hi)

end Sys2Proof
end

