-- ==== Sys2Proof/Config.lean ====
section
/-! DEFINITION. What is fixed for an instance of the block (00_scope.md R6), and the free values of the environment
(46_commands.md R212). -/

namespace Sys2Proof

/-- The instance parameters of 00_scope.md R6 that a rule of the block reads. `ostatOffset` is OSTAT_OFFSET, 0 or 1. The
others of R6 are CTRL.STRICT, which is state, and READ_TIMEOUT and LAT, which no rule reads (log 12). -/
structure Config where
  ostatOffset : BitVec 1
  deriving DecidableEq, Repr

/-- What an Exchange brings back (46_commands.md R212): a byte sequence, empty when nothing arrived, or the transport's
own TransportError (60_exceptions.md R245). -/
inductive Reply where
  | bytes (raw : List Byte)
  | transportError
  deriving DecidableEq, Repr

/-- FREE VALUE (R212, U8; log 6): does the Exchange number `k` end in TransportError? -/
opaque Config.freeReplyFails : Nat → Bool

/-- FREE VALUE (R212, U8; log 6): how many bytes the reply to Exchange number `k` has. The type keeps the spec's bound,
0 to 256. -/
opaque Config.freeReplyLength : Nat → Fin 257

/-- FREE VALUE (R212, U8; log 6): byte `j` of the reply to Exchange number `k`. -/
opaque Config.freeReplyByte : Nat → Nat → Byte

end Sys2Proof
end

