-- ==== Sys2Proof/Machine/State.lean ====
section
/-! DEFINITION. The state of the machine as plain data (10_state.md R20), the reasons a step can stop, and the state after
reset (10_state.md R35). -/

namespace Sys2Proof.Machine

/-- A byte buffer by offset (20_memory.md R50): the bytes that differ from what an unlisted offset reads as, offsets strictly
rising. -/
abbrev Memory := List Host.Cell

/-- What the host does next (00_scope.md R8(b), 70_reset_and_hazards.md R280 to R282). -/
inductive Input where
  /-- it presents a command word to the block, or sends a request frame on the bus (log 3, log 5) -/
  | present (w : Wire)
  /-- it asserts `rst` while the block is idle (R280) -/
  | reset
  /-- it presents a command word and `rst` is asserted after the word was accepted and before its response was delivered
  (R281) -/
  | presentThenReset (w : CmdWord)
  deriving DecidableEq, Repr

/-- One Exchange the host made: the eight bytes it gave to its transport and what came back (R16 "Cycle", 46_commands.md R212). With the
reply TransportError the record says only that the Exchange was made and failed: whether any of its bytes went on the wire the spec does
not say, and that a failed Exchange is recorded at all, in the same form as a completed one, is the model's choice (DESIGN CHOICE, log 21). -/
structure Cycle where
  frame : List Byte
  reply : Reply
  deriving DecidableEq, Repr

/-- A stop of the machine. -/
inductive Fault where
  /-- Raised by RX.PUSH, DEC.RLY, DEC.DIN and DEC.OST when RXLEN is above 256, so that the access would leave the 256 bytes of
  RXB (20_memory.md R50, R56). RXLEN never exceeds 256 (10_state.md R26), so no run from reset raises it. Safe (log 10). -/
  | rxbOffsetOutside
  deriving DecidableEq, Repr

/-- No meaning is given. -/
inductive Refusal where
  /-- Raised by an arm of exec whose instruction has no meaning yet. No arm of this model raises it. Safe. -/
  | notModelled (mnemonic : String)
  /-- Raised by BLD.RLY, BLD.DIN and BLD.OST when `dev` is 0 or 248 to 255, whatever the channel and the action: the spec gives
  the whole command no behaviour and has a model refuse it (43_encoder.md R169). Safe (log 9). -/
  | deviceOutOfRange
  /-- Raised by the step when the host would send eight bytes that are none of the four request-frame shapes
  (30_encoding.md R90, R92). Safe (log 7). -/
  | notRequestFrame
  deriving DecidableEq, Repr

/-- The machine. The first six fields are the complete architectural state of the block (10_state.md R20); `cfg` is the instance
parameter (R6; log 1); the rest are the block's two channels and what stands behind them, the host and the bus (log 3, log 6). -/
structure State where
  /-- `CRC`, 16 bits (R22) -/
  crc : Half
  /-- `TXF[0..7]` (R24) -/
  txf : Memory
  /-- `TXV`, the frame-valid flag (R25) -/
  txv : Bool
  /-- `RXB[0..255]` (R26) -/
  rxb : Memory
  /-- `RXLEN`, 9 bits (R26) -/
  rxlen : BitVec 9
  /-- `CTRL.STRICT` (R29) -/
  strict : Bool
  /-- the instance parameters, written by nothing (R6, R20) -/
  cfg : Config
  /-- what the host presents, next first (R62, R282) -/
  inputs : List Input
  /-- the response words delivered, oldest first (R86, R282) -/
  responses : List RspWord
  /-- the replies a scenario fixes for the coming Exchanges, next first (R212) -/
  replies : List Reply
  /-- how many Exchanges have been made, failed ones too (log 21): the counter of the free reply (R212, U8) -/
  draws : Nat
  /-- the Exchanges made, oldest first, those that failed in the transport among them (R212; DESIGN CHOICE, log 21) -/
  bus : List Cycle
  deriving DecidableEq, Repr

/-- The machine right after reset (10_state.md R35, 70_reset_and_hazards.md R280). TXF and RXB list nothing: every byte reads
00, a value the spec leaves open (log 2). OSTAT_OFFSET is the spec's default 0 (R6; log 1). -/
def State.reset : State where
  crc := 0xFFFF
  txf := []
  txv := false
  rxb := []
  rxlen := 0
  strict := false
  cfg := { ostatOffset := 0 }
  inputs := []
  responses := []
  replies := []
  draws := 0
  bus := []

end Sys2Proof.Machine
end

