-- ==== Sys2Proof/Machine/Values.lean ====
section
/-! DEFINITION. The values the units return: the errors (60_exceptions.md R240), a mapping result (42_addrmap.md R140), a
decode result (44_decoder.md R181). -/

namespace Sys2Proof.Machine

/-- The three errors an operation can raise (00_scope.md R12, 60_exceptions.md R240). -/
inductive OpError where
  | invalidChannel
  | invalidAction
  | illegalCommand
  deriving DecidableEq, Repr

/-- A mapping result `(fc, addr, data)` (42_addrmap.md R140). -/
structure Mapping where
  fc : Byte
  addr : Half
  data : Half
  deriving DecidableEq, Repr

/-- STATE of a decode result (44_decoder.md R181). -/
inductive DecState where
  | off
  | on
  | unknown
  | acknowledged
  deriving DecidableEq, Repr

/-- TAG of a decode result (44_decoder.md R181). -/
inductive DecTag where
  | none
  | timeout
  | malformed
  deriving DecidableEq, Repr

/-- A decode result, the pair (STATE, TAG) (44_decoder.md R181). -/
structure DecResult where
  state : DecState
  tag : DecTag
  deriving DecidableEq, Repr

end Sys2Proof.Machine
end

