-- ==== Sys2Proof/Machine/Flags.lean ====
section
/-! DEFINITION. The two flags of the block (10_state.md R28), and the status and payload fields of a response word
(30_encoding.md R86 to R89, R99). -/

namespace Sys2Proof.Machine

/-! ### The flags -/

/-- `TXV <- v` (10_state.md R25). -/
def State.setTxv (s : State) (v : Bool) : State := { s with txv := v }

/-- `CTRL.STRICT <- v` (45_system.md R201). -/
def State.setStrict (s : State) (v : Bool) : State := { s with strict := v }

/-! ### The response word (R86) -/

/-- `{STATUS, 12 zero bits, PAYLOAD}` (R86). -/
def packResponse (status : BitVec 4) (payload : Payload) : RspWord :=
  status ++ 0#12 ++ payload

/-- `STATUS`, bits 63:60 (R86). -/
def statusField (r : RspWord) : BitVec 4 := r.extractLsb' 60 4

/-- `PAYLOAD`, bits 47:0 (R86). -/
def payloadField (r : RspWord) : Payload := r.extractLsb' 0 48

/-- STATUS code 0 (R87). -/
def statusOk : BitVec 4 := 0

/-- The STATUS code of an error (R87, 60_exceptions.md R240). -/
def OpError.code : OpError → BitVec 4
  | .invalidChannel => 1
  | .invalidAction => 2
  | .illegalCommand => 3

/-- The error a host reads in a response word, none when STATUS is 0 (R87); codes 4 to 15 are never returned. -/
def errorOf (r : RspWord) : Option OpError :=
  if statusField r = 1 then some .invalidChannel
  else if statusField r = 2 then some .invalidAction
  else if statusField r = 3 then some .illegalCommand
  else none

/-! ### The payloads (R88) -/

/-- Payload of CRC.GET: bits 15:0 (R88). -/
def crcPayload (c : Half) : Payload := c.setWidth 48

/-- Payload of a mapping: bits 39:32 fc, 31:16 addr, 15:0 data (R88). -/
def mappingPayload (m : Mapping) : Payload := 0#8 ++ m.fc ++ m.addr ++ m.data

/-- Payload of TX.RD: bits 7:0 (R88). -/
def bytePayload (b : Byte) : Payload := b.setWidth 48

/-- STATE codes (R99). -/
def DecState.code : DecState → BitVec 2
  | .off => 0
  | .on => 1
  | .unknown => 2
  | .acknowledged => 3

/-- TAG codes (R99). -/
def DecTag.code : DecTag → BitVec 2
  | .none => 0
  | .timeout => 1
  | .malformed => 2

/-- Payload of a decode: bits 1:0 STATE, bits 3:2 TAG (R99). -/
def resultPayload (r : DecResult) : Payload := 0#44 ++ r.tag.code ++ r.state.code

/-- The pair a host reads in a decode's payload, one of the five of R99; any other payload is never returned. -/
def resultOf (p : Payload) : Option DecResult :=
  if p = 0x0 then some ⟨.off, .none⟩
  else if p = 0x1 then some ⟨.on, .none⟩
  else if p = 0x3 then some ⟨.acknowledged, .none⟩
  else if p = 0x6 then some ⟨.unknown, .timeout⟩
  else if p = 0xA then some ⟨.unknown, .malformed⟩
  else none

/-- Payload of STAT: bit 0 STRICT, bit 1 TXV, bit 4 OSTAT_OFFSET, bits 16:8 RXLEN (R89, 45_system.md R202). -/
def statPayload (s : State) : Payload :=
  0#31 ++ s.rxlen ++ 0#3 ++ s.cfg.ostatOffset ++ 0#2 ++ BitVec.ofBool s.txv ++ BitVec.ofBool s.strict

end Sys2Proof.Machine
end

