-- ==== Sys2Proof/Machine/Crc.lean ====
section
/-! DEFINITION. The pure functions of the CRC generator CRCU (41_crc.md R121 to R123). The four details of the step that
D0 leaves unsaid are the spec's (R120, G1; log 13). -/

namespace Sys2Proof.Machine

/-- CRC_POLY (00_scope.md R5). -/
def crcPoly : Half := 0xA001

/-- CRC_INIT (00_scope.md R5). -/
def crcStart : Half := 0xFFFF

/-- The low byte `v[7:0]` of a 16-bit value (00_scope.md R14(b)). -/
def loByte (v : Half) : Byte := v.extractLsb' 0 8

/-- The high byte `v[15:8]` of a 16-bit value (00_scope.md R14(b)). -/
def hiByte (v : Half) : Byte := v.extractLsb' 8 8

/-- `crc_bit(c)`, the bit step (41_crc.md R121). -/
def crcBit (c : Half) : Half :=
  if c.getLsbD 0 then (c >>> 1) ^^^ crcPoly else c >>> 1

/-- `n` applications of the bit step, one after the other. -/
def crcBits : Nat → Half → Half
  | 0, c => c
  | n + 1, c => crcBits n (crcBit c)

/-- `crc_byte(c, b)`, the byte step: the byte enters bits 7:0, then exactly eight bit steps (41_crc.md R122). -/
def crcByte (c : Half) (b : Byte) : Half :=
  crcBits 8 (c ^^^ b.setWidth 16)

/-- `crc16(s)`, over the bytes in sequence order (41_crc.md R123). -/
def crc16 (s : List Byte) : Half :=
  s.foldl crcByte crcStart

/-- `crc16_bytes(s)`, low byte first (41_crc.md R123). -/
def crc16Bytes (s : List Byte) : List Byte :=
  [loByte (crc16 s), hiByte (crc16 s)]

end Sys2Proof.Machine
end

