-- ==== Sys2Proof/Machine/Operands.lean ====
section
/-! DEFINITION. The operand forms of the operations (30_encoding.md R84, R85): no operand is sign-extended, scaled or
shifted; what is checked of each is said here. -/

namespace Sys2Proof.Machine

/-- The channel check `1 <= ch <= 8`, on the unsigned value of the field (30_encoding.md R85, 42_addrmap.md R144). -/
def channelValid (ch : Byte) : Bool :=
  1 ≤ ch.toNat && ch.toNat ≤ 8

/-- The device addresses D0's type allows, 1 to 247 (43_encoder.md R169). -/
def deviceInRange (dev : Byte) : Bool :=
  1 ≤ dev.toNat && dev.toNat ≤ 247

/-- The action token: 0x01 is On with data field 0x0100, 0x02 is Off with data field 0x0200, every other value is not an
action (30_encoding.md R84, 00_scope.md R5). -/
def actionData (act : Byte) : Option Half :=
  if act = 0x01 then some 0x0100
  else if act = 0x02 then some 0x0200
  else none

/-- The byte index of TX.RD, 0 to 7 (43_encoder.md R168). -/
def txIndex (i : BitVec 3) : Nat := i.toNat

/-- The mode bit of MODE (45_system.md R201). -/
def modeBit (s : BitVec 1) : Bool := s = 1

/-- `zext_16(v)` of a byte operand (00_scope.md R9). -/
def zext16 (v : Byte) : Half := v.setWidth 16

end Sys2Proof.Machine
end

