-- ==== Sys2Proof/Machine/Mapper.lean ====
section
/-! DEFINITION. The pure functions of the register-address mapper AMAP (42_addrmap.md R141 to R144) and of the frame encoder
FENC (43_encoder.md R161, R162). -/

namespace Sys2Proof.Machine

/-- `map_relay(ch, act)`: the channel is checked first (42_addrmap.md R141; log 14). -/
def mapRelay (ch act : Byte) : Except OpError Mapping :=
  if channelValid ch then
    match actionData act with
    | some data => .ok { fc := 0x06, addr := zext16 ch, data := data }
    | none => .error .invalidAction
  else .error .invalidChannel

/-- `map_input(ch)` (42_addrmap.md R142). -/
def mapInput (ch : Byte) : Except OpError Mapping :=
  if channelValid ch then .ok { fc := 0x03, addr := 0x0080 + zext16 ch, data := 0x0001 }
  else .error .invalidChannel

/-- `map_ostat(ch)`, for the instance's OSTAT_OFFSET (42_addrmap.md R143; log 1). -/
def mapOstat (offset : BitVec 1) (ch : Byte) : Except OpError Mapping :=
  if channelValid ch then .ok { fc := 0x03, addr := zext16 ch + offset.setWidth 16, data := 0x0001 }
  else .error .invalidChannel

/-- `build_body(dev, fc, addr, data)`: address and data high byte first (43_encoder.md R161, 20_memory.md R54). -/
def buildBody (dev : Byte) (m : Mapping) : List Byte :=
  [dev, m.fc, hiByte m.addr, loByte m.addr, hiByte m.data, loByte m.data]

/-- `build_frame(dev, m)`: the body and its CRC, low byte at offset 6 (43_encoder.md R162). -/
def buildFrame (dev : Byte) (m : Mapping) : List Byte :=
  buildBody dev m ++ crc16Bytes (buildBody dev m)

end Sys2Proof.Machine
end

