-- ==== Sys2Proof/Machine/Validator.lean ====
section
/-! DEFINITION. The pure functions of the response decoder and validator FDEC (44_decoder.md R184, R186). -/

namespace Sys2Proof.Machine

/-- RX_MIN_DECODABLE (00_scope.md R5). -/
def rxMinDecodable : Nat := 5

/-- RX_STATE_OFFSET (00_scope.md R5). -/
def rxStateOffset : Nat := 4

/-- `decode_write(raw)`: only emptiness is looked at (44_decoder.md R184; log 15). -/
def decodeWrite (raw : List Byte) : DecResult :=
  if raw.length = 0 then ⟨.unknown, .timeout⟩ else ⟨.acknowledged, .none⟩

/-- `raw[0 : n-2]`, every byte but the last two (00_scope.md R10). -/
def withoutCrc (raw : List Byte) : List Byte := raw.take (raw.length - 2)

/-- `raw[n-2 : n]`, the last two bytes (00_scope.md R10). -/
def receivedCrc (raw : List Byte) : List Byte := raw.drop (raw.length - 2)

/-- `decode_read(strict, raw)`: emptiness, then length, then (strict only) the CRC, then the state byte (44_decoder.md R186). -/
def decodeRead (strict : Bool) (raw : List Byte) : DecResult :=
  if raw.length = 0 then ⟨.unknown, .timeout⟩
  else if raw.length < rxMinDecodable then ⟨.unknown, .malformed⟩
  else if strict = true ∧ crc16Bytes (withoutCrc raw) ≠ receivedCrc raw then ⟨.unknown, .malformed⟩
  else if raw.getD rxStateOffset 0 = 0x01 then ⟨.on, .none⟩
  else ⟨.off, .none⟩

end Sys2Proof.Machine
end

