-- ==== Sys2Proof/Machine/Ops.lean ====
section
/-! DEFINITION. The shared operations over the state: the byte buffers (20_memory.md R50 to R53), the response and the error
entry (00_scope.md R12, 60_exceptions.md R247), the build and decode transitions (43_encoder.md R164, 44_decoder.md R187), the
Exchange on the bus (46_commands.md R212) and reset (70_reset_and_hazards.md R280). -/

namespace Sys2Proof.Machine

/-! ### Byte buffers -/

/-- The size of TXF (20_memory.md R50). -/
def txfSize : Nat := 8

/-- The size of RXB, RX_MAX (20_memory.md R50, 00_scope.md R5). -/
def rxbSize : Nat := 256

/-- What an offset nothing has written reads as. The spec leaves it open (10_state.md R35) and unobservable (93 U4; log 2). -/
def Memory.unlisted : Byte := 0

/-- `MemRead(_, i, 1)` (00_scope.md R11). -/
def Memory.read : Memory → Nat → Byte
  | [], _ => Memory.unlisted
  | (a, v) :: m, i => if a = i then v else Memory.read m i

/-- An entry in front, unless it says what an unlisted offset reads as anyway. -/
def Memory.entry (i : Nat) (v : Byte) (m : Memory) : Memory :=
  if v = Memory.unlisted then m else (i, v) :: m

/-- `MemWrite(_, i, 1, v)` (00_scope.md R11), keeping the canonical form. -/
def Memory.write : Memory → Nat → Byte → Memory
  | [], i, v => Memory.entry i v []
  | (a, u) :: m, i, v =>
    if i < a then Memory.entry i v ((a, u) :: m)
    else if i = a then Memory.entry i v m
    else (a, u) :: Memory.write m i v

/-- Bytes written one after the other, from offset `i` up. -/
def Memory.writeFrom : Memory → Nat → List Byte → Memory
  | m, _, [] => m
  | m, i, b :: bs => Memory.writeFrom (Memory.write m i b) (i + 1) bs

/-- The `n` bytes at offsets 0 to `n-1`. -/
def Memory.bytes (m : Memory) (n : Nat) : List Byte := (List.range n).map m.read

/-- The canonical form, offsets from `lo` up to below `size`. -/
def Memory.wfFrom (size : Nat) : Nat → Memory → Bool
  | _, [] => true
  | lo, (a, v) :: m => lo ≤ a && a < size && v != Memory.unlisted && Memory.wfFrom size (a + 1) m

/-- The canonical form of a buffer of `size` bytes: offsets strictly rising and below `size`, no entry equal to what an unlisted
offset reads as. -/
def Memory.wf (size : Nat) (m : Memory) : Bool := Memory.wfFrom size 0 m

/-- The request frame, `TXF[0]` to `TXF[7]` (10_state.md R24). -/
def State.txBytes (s : State) : List Byte := s.txf.bytes txfSize

/-- The response, `RXB[0]` to `RXB[RXLEN-1]` (44_decoder.md R187). -/
def State.rxBytes (s : State) : List Byte := s.rxb.bytes s.rxlen.toNat

/-! ### The response and the error entry -/

/-- Delivers one response word (70_reset_and_hazards.md R282: responses come in the order of the commands). -/
def State.deliver (s : State) (r : RspWord) : State := { s with responses := s.responses ++ [r] }

/-- `respond(OK, p)` (00_scope.md R12). -/
def respond (p : Payload) (s : State) : State := s.deliver (packResponse statusOk p)

/-- `raise E`, the one error entry of the block: the response word with the error's STATUS and payload 0, and nothing else
(00_scope.md R12, 60_exceptions.md R247). Nothing is saved and there is no return (R248). The state changes a rule lists before
the `raise` are made by the caller. -/
def raise (e : OpError) (s : State) : State := s.deliver (packResponse e.code 0)

/-! ### The transitions the families share -/

/-- A MAP operation: the mapper's result or its error, no state read or written (42_addrmap.md R145 to R147). -/
def mapOp (m : Except OpError Mapping) (s : State) : State :=
  match m with
  | .ok m => respond (mappingPayload m) s
  | .error e => raise e s

/-- `{F[7], F[6]}`, the CRC a build leaves in `CRC` (43_encoder.md R164). -/
def frameCrc (f : List Byte) : Half := f.getD 7 0 ++ f.getD 6 0

/-- The BLD transition (43_encoder.md R164). On an error `TXV <- 0` and nothing else but the response. -/
def buildOp (dev : Byte) (m : Except OpError Mapping) (s : State) : State :=
  match m with
  | .error e => raise e (s.setTxv false)
  | .ok m =>
    respond 0
      { s with
        txf := s.txf.writeFrom 0 (buildFrame dev m)
        crc := frameCrc (buildFrame dev m)
        txv := true }

/-- A build with the spec's precondition on the device address: outside 1 to 247 the whole command is refused, whatever the
channel and the action (43_encoder.md R169; log 9). -/
def buildChecked (dev : Byte) (m : Except OpError Mapping) (s : State) : Host.Outcome State Fault Refusal :=
  if deviceInRange dev then .next (buildOp dev m s) else .refused .deviceOutOfRange

/-- The end of every DEC: the response is consumed and the result answered (44_decoder.md R187). -/
def finishDecode (r : DecResult) (s : State) : State :=
  respond (resultPayload r) { s with rxlen := 0 }

/-- The DEC transition of the write kind (44_decoder.md R187 with R184). -/
def decodeWriteOp (s : State) : State :=
  finishDecode (decodeWrite s.rxBytes) s

/-- What a strict read decode of five bytes or more leaves in `CRC`, whether or not it matched (44_decoder.md R187). -/
def decodedCrc (s : State) : Half :=
  if s.strict = true ∧ rxMinDecodable ≤ s.rxlen.toNat then crc16 (withoutCrc s.rxBytes) else s.crc

/-- The DEC transition of the read kinds (44_decoder.md R187 with R186). -/
def decodeReadOp (s : State) : State :=
  finishDecode (decodeRead s.strict s.rxBytes) { s with crc := decodedCrc s }

/-- A decode reads offsets 0 to RXLEN-1 of RXB, which has 256 bytes (20_memory.md R50; log 10). -/
def rxChecked (s s' : State) : Host.Outcome State Fault Refusal :=
  if s.rxlen.toNat ≤ rxbSize then .next s' else .fault .rxbOffsetOutside

/-- RX.PUSH: a full buffer raises IllegalCommand and changes nothing; else the byte goes to offset RXLEN (44_decoder.md R183). -/
def pushOp (b : Byte) (s : State) : State :=
  if s.rxlen = 256 then raise .illegalCommand s
  else respond 0 { s with rxb := s.rxb.write s.rxlen.toNat b, rxlen := s.rxlen + 1 }

/-! ### The bus and reset -/

/-- A reply of at most 256 bytes: an Exchange never returns more (46_commands.md R212, 93 U3). -/
def Reply.clip : Reply → Reply
  | .bytes raw => .bytes (raw.take rxbSize)
  | .transportError => .transportError

/-- The free reply to Exchange number `k` (46_commands.md R212, 93 U8; log 6). -/
def freeReply (k : Nat) : Reply :=
  if Config.freeReplyFails k then .transportError
  else .bytes ((List.range (Config.freeReplyLength k).val).map (Config.freeReplyByte k))

/-- The reply to the next Exchange: what a scenario fixes, else the free draw (log 6). -/
def State.nextReply (s : State) : Reply :=
  match s.replies with
  | r :: _ => Reply.clip r
  | [] => freeReply s.draws

/-- `Exchange(F)`: the host sends the eight bytes and collects the reply (46_commands.md R212). The block takes no part: it holds
no copy of any device register and has no serial port (20_memory.md R58, 60_exceptions.md R262; log 5). An Exchange that fails with
TransportError is recorded in `bus`, takes its entry of `replies` and advances `draws` like any other; whether its frame was sent before it
failed the spec leaves open, and the record does not say (DESIGN CHOICE, log 21). -/
def exchange (f : List Byte) (s : State) : State :=
  { s with
    bus := s.bus ++ [{ frame := f, reply := s.nextReply }]
    replies := s.replies.tail
    draws := s.draws + 1 }

/-- `rst`: the block takes the reset state (70_reset_and_hazards.md R280). OSTAT_OFFSET is a constant of the instance and the
host's and the bus's own records are not the block's (log 11). -/
def State.blockReset (s : State) : State :=
  { s with
    crc := State.reset.crc
    txf := State.reset.txf
    txv := State.reset.txv
    rxb := State.reset.rxb
    rxlen := State.reset.rxlen
    strict := State.reset.strict }

end Sys2Proof.Machine
end

