-- ==== Sys2Proof/Machine/BusUnit.lean ====
section
/-! DEFINITION. The four request-frame rows (30_encoding.md R92). A frame is no operation of the block: what the spec gives it is
the host action Exchange, which sends it on the bus (46_commands.md R212; log 5). -/

namespace Sys2Proof.Machine

/-- FRAME.RLY.ON: Exchange of `dd 06 00 0n 01 00 kk kk` (30_encoding.md R92, 46_commands.md R212). -/
def execFrameRlyOn (dev : Byte) (n : BitVec 4) (crcLo crcHi : Byte) (s : State) : Host.Outcome State Fault Refusal :=
  .next (exchange [dev, 0x06, 0x00, 0#4 ++ n, 0x01, 0x00, crcLo, crcHi] s)

/-- FRAME.RLY.OFF: Exchange of `dd 06 00 0n 02 00 kk kk` (30_encoding.md R92, 46_commands.md R212). -/
def execFrameRlyOff (dev : Byte) (n : BitVec 4) (crcLo crcHi : Byte) (s : State) : Host.Outcome State Fault Refusal :=
  .next (exchange [dev, 0x06, 0x00, 0#4 ++ n, 0x02, 0x00, crcLo, crcHi] s)

/-- FRAME.DIN.RD: Exchange of `dd 03 00 8n 00 01 kk kk` (30_encoding.md R92, 46_commands.md R212). -/
def execFrameDinRd (dev : Byte) (n : BitVec 4) (crcLo crcHi : Byte) (s : State) : Host.Outcome State Fault Refusal :=
  .next (exchange [dev, 0x03, 0x00, 8#4 ++ n, 0x00, 0x01, crcLo, crcHi] s)

/-- FRAME.OST.RD: Exchange of `dd 03 00 0m 00 01 kk kk` (30_encoding.md R92, 46_commands.md R212). -/
def execFrameOstRd (dev : Byte) (m : BitVec 4) (crcLo crcHi : Byte) (s : State) : Host.Outcome State Fault Refusal :=
  .next (exchange [dev, 0x03, 0x00, 0#4 ++ m, 0x00, 0x01, crcLo, crcHi] s)

end Sys2Proof.Machine
end

