-- ==== Sys2Proof/Machine/CrcUnit.lean ====
section
/-! DEFINITION. The operations of the CRC generator CRCU (41_crc.md R124 to R126). -/

namespace Sys2Proof.Machine

/-- CRC.INIT (41_crc.md R124). -/
def execCrcInit (s : State) : Host.Outcome State Fault Refusal :=
  .next (respond 0 { s with crc := crcStart })

/-- CRC.UPD b (41_crc.md R125). -/
def execCrcUpd (b : Byte) (s : State) : Host.Outcome State Fault Refusal :=
  .next (respond 0 { s with crc := crcByte s.crc b })

/-- CRC.GET (41_crc.md R126). -/
def execCrcGet (s : State) : Host.Outcome State Fault Refusal :=
  .next (respond (crcPayload s.crc) s)

end Sys2Proof.Machine
end

