-- ==== Sys2Proof/Machine/DecoderUnit.lean ====
section
/-! DEFINITION. The operations of the response decoder and validator FDEC (44_decoder.md R182, R183, R185, R188, R189). -/

namespace Sys2Proof.Machine

/-- RX.CLR: `RXLEN <- 0`; the bytes of RXB stay (44_decoder.md R182; log 18). -/
def execRxClr (s : State) : Host.Outcome State Fault Refusal :=
  .next (respond 0 { s with rxlen := 0 })

/-- RX.PUSH b (44_decoder.md R183). -/
def execRxPush (b : Byte) (s : State) : Host.Outcome State Fault Refusal :=
  rxChecked s (pushOp b s)

/-- DEC.RLY (44_decoder.md R185): CTRL.STRICT has no effect and CRC is not written (log 15). -/
def execDecRly (s : State) : Host.Outcome State Fault Refusal :=
  rxChecked s (decodeWriteOp s)

/-- DEC.DIN (44_decoder.md R188). -/
def execDecDin (s : State) : Host.Outcome State Fault Refusal :=
  rxChecked s (decodeReadOp s)

/-- DEC.OST (44_decoder.md R189): as DEC.DIN in every respect but the command word. -/
def execDecOst (s : State) : Host.Outcome State Fault Refusal :=
  rxChecked s (decodeReadOp s)

end Sys2Proof.Machine
end

