-- ==== Sys2Proof/Machine/EncoderUnit.lean ====
section
/-! DEFINITION. The operations of the request-frame encoder FENC (43_encoder.md R165 to R168). -/

namespace Sys2Proof.Machine

/-- BLD.RLY dev, ch, act (43_encoder.md R165, R169). -/
def execBldRly (dev ch act : Byte) (s : State) : Host.Outcome State Fault Refusal :=
  buildChecked dev (mapRelay ch act) s

/-- BLD.DIN dev, ch (43_encoder.md R166, R169). -/
def execBldDin (dev ch : Byte) (s : State) : Host.Outcome State Fault Refusal :=
  buildChecked dev (mapInput ch) s

/-- BLD.OST dev, ch (43_encoder.md R167, R169). -/
def execBldOst (dev ch : Byte) (s : State) : Host.Outcome State Fault Refusal :=
  buildChecked dev (mapOstat s.cfg.ostatOffset ch) s

/-- TX.RD i: with no frame it raises IllegalCommand, else it answers byte `i` and changes nothing (43_encoder.md R168). -/
def execTxRd (i : BitVec 3) (s : State) : Host.Outcome State Fault Refusal :=
  if s.txv then .next (respond (bytePayload (s.txf.read (txIndex i))) s)
  else .next (raise .illegalCommand s)

end Sys2Proof.Machine
end

