-- ==== Sys2Proof/Machine/MapUnit.lean ====
section
/-! DEFINITION. The operations of the register-address mapper AMAP (42_addrmap.md R145 to R147). -/

namespace Sys2Proof.Machine

/-- MAP.RLY ch, act (42_addrmap.md R145). -/
def execMapRly (ch act : Byte) (s : State) : Host.Outcome State Fault Refusal :=
  .next (mapOp (mapRelay ch act) s)

/-- MAP.DIN ch (42_addrmap.md R146). -/
def execMapDin (ch : Byte) (s : State) : Host.Outcome State Fault Refusal :=
  .next (mapOp (mapInput ch) s)

/-- MAP.OST ch (42_addrmap.md R147). -/
def execMapOst (ch : Byte) (s : State) : Host.Outcome State Fault Refusal :=
  .next (mapOp (mapOstat s.cfg.ostatOffset ch) s)

end Sys2Proof.Machine
end

