-- ==== Sys2Proof/Machine/SystemUnit.lean ====
section
/-! DEFINITION. The system operations (45_system.md R201, R202). -/

namespace Sys2Proof.Machine

/-- MODE m (45_system.md R201). -/
def execMode (m : BitVec 1) (s : State) : Host.Outcome State Fault Refusal :=
  .next (respond 0 (s.setStrict (modeBit m)))

/-- STAT (45_system.md R202). -/
def execStat (s : State) : Host.Outcome State Fault Refusal :=
  .next (respond (statPayload s) s)

end Sys2Proof.Machine
end

