-- ==== Sys2Proof/Machine/Dispatch.lean ====
section
/-! DEFINITION. One arm per instruction: what executing it does. -/

namespace Sys2Proof.Machine

def exec (i : Instr) (s : State) : Host.Outcome State Fault Refusal :=
  match i with
  | .crcInit => Sys2Proof.Machine.execCrcInit s
  | .crcUpd b => Sys2Proof.Machine.execCrcUpd b s
  | .crcGet => Sys2Proof.Machine.execCrcGet s
  | .mapRly ch act => Sys2Proof.Machine.execMapRly ch act s
  | .mapDin ch => Sys2Proof.Machine.execMapDin ch s
  | .mapOst ch => Sys2Proof.Machine.execMapOst ch s
  | .bldRly dev ch act => Sys2Proof.Machine.execBldRly dev ch act s
  | .bldDin dev ch => Sys2Proof.Machine.execBldDin dev ch s
  | .bldOst dev ch => Sys2Proof.Machine.execBldOst dev ch s
  | .txRd k => Sys2Proof.Machine.execTxRd k s
  | .rxClr => Sys2Proof.Machine.execRxClr s
  | .rxPush b => Sys2Proof.Machine.execRxPush b s
  | .decRly => Sys2Proof.Machine.execDecRly s
  | .decDin => Sys2Proof.Machine.execDecDin s
  | .decOst => Sys2Proof.Machine.execDecOst s
  | .mode m => Sys2Proof.Machine.execMode m s
  | .stat => Sys2Proof.Machine.execStat s
  | .frameRlyOn dev n lo hi => Sys2Proof.Machine.execFrameRlyOn dev n lo hi s
  | .frameRlyOff dev n lo hi => Sys2Proof.Machine.execFrameRlyOff dev n lo hi s
  | .frameDinRd dev n lo hi => Sys2Proof.Machine.execFrameDinRd dev n lo hi s
  | .frameOstRd dev m lo hi => Sys2Proof.Machine.execFrameOstRd dev m lo hi s

end Sys2Proof.Machine
end

