-- ==== Sys2Proof/Machine/Fetch.lean ====
section
/-! DEFINITION. Taking what the host presents next and running it (10_state.md R21, 20_memory.md R62). -/

namespace Sys2Proof.Machine

/-- One wire word, decoded and run. A command word that matches no pattern is answered with IllegalCommand and changes no state
(30_encoding.md R94, 60_exceptions.md R243; log 4); eight bytes that are no request frame are refused (log 7). -/
def runWire (w : Wire) (s : State) : Host.Outcome State Fault Refusal :=
  match decode w with
  | .instr i => exec i s
  | .reject .illegalCommand => .next (raise .illegalCommand s)
  | .reject .notRequestFrame => .refused .notRequestFrame

/-- The state after the head of `inputs` is taken. -/
def State.taken (s : State) : State := { s with inputs := s.inputs.tail }

/-- `rst` during the operation of an accepted command word: the operation is abandoned without a response and the block takes the
reset state, whatever the operation had done (70_reset_and_hazards.md R281). A word the model refuses stays refused (log 11). -/
def runCutShort (w : CmdWord) (s : State) : Host.Outcome State Fault Refusal :=
  match runWire (.cw32 w) s with
  | .next _ => .next s.blockReset
  | .fault f => .fault f
  | .refused r => .refused r

/-- One step of the machine: the host's next input. With nothing presented the block stays idle (log 3). -/
def runNext (s : State) : Host.Outcome State Fault Refusal :=
  match s.inputs with
  | [] => .next s
  | .present w :: _ => runWire w s.taken
  | .reset :: _ => .next s.taken.blockReset
  | .presentThenReset w :: _ => runCutShort w s.taken

/-- `s` with one wire word presented before all else. -/
def State.presenting (s : State) (w : Wire) : State := { s with inputs := .present w :: s.inputs }

end Sys2Proof.Machine
end

