-- ==== Sys2Proof/Machine/Step.lean ====
section
/-! DEFINITION. The step function of the machine and the placing of a next instruction. -/

namespace Sys2Proof.Machine

/-- One step: the operation the host presents next (10_state.md R21). -/
def step (s : State) : Host.Outcome State Fault Refusal := runNext s

/-- `s` with the instruction whose bits are `w`, numbered as spec/opcode_table.json numbers them, presented next (R27: the block
fetches nothing, each operation is supplied by the host; log 3). -/
def State.withFetchWord (s : State) (nbits w : Nat) : State := s.presenting (wireOfTableWord nbits w)

end Sys2Proof.Machine
end

