-- ==== Sys2Proof/Machine/Commands.lean ====
section
/-! DEFINITION. The host's pseudo-operations (46_commands.md): sequences of operations of the block and host actions, run by the
host, adding no state to the block (R210). Each answers the state it leaves and what the host got; a stop of an operation stops
it. The host is a program over `exec`; an Exchange is one step, so no second one starts inside it (R63, R291; log 16). -/

namespace Sys2Proof.Machine

/-- Runs `f` after a next state; a fault or a refusal ends the sequence. -/
def andThen {α β : Type} (o : Host.Outcome α Fault Refusal) (f : α → Host.Outcome β Fault Refusal) :
    Host.Outcome β Fault Refusal :=
  match o with
  | .next a => f a
  | .fault r => .fault r
  | .refused r => .refused r

/-- The response word the host got last. -/
def State.lastResponse (s : State) : RspWord := s.responses.getLastD 0

/-- Issues one operation and answers its response word (R210). -/
def issue (i : Instr) (s : State) : Host.Outcome (State × RspWord) Fault Refusal :=
  andThen (exec i s) fun s' => .next (s', s'.lastResponse)

/-! ### Host actions (46_commands.md R211) -/

/-- TX.RD at the given indexes, collecting the payload bytes. -/
def readBytes : List (BitVec 3) → State → Host.Outcome (State × List Byte) Fault Refusal
  | [], s => .next (s, [])
  | i :: is, s =>
    andThen (issue (.txRd i) s) fun (s₁, r) =>
      andThen (readBytes is s₁) fun (s₂, bs) => .next (s₂, (payloadField r).setWidth 8 :: bs)

/-- `host: F <- readframe()`: TX.RD 0 to TX.RD 7 (R211). -/
def readFrame (s : State) : Host.Outcome (State × List Byte) Fault Refusal :=
  readBytes [0, 1, 2, 3, 4, 5, 6, 7] s

/-- `host: load(raw)`: one RX.PUSH per byte, in order (R211). -/
def loadBytes : List Byte → State → Host.Outcome State Fault Refusal
  | [], s => .next s
  | b :: bs, s => andThen (exec (.rxPush b) s) (loadBytes bs)

/-! ### The CRC contract (46_commands.md R213) -/

/-- CRC.UPD for each byte in order. -/
def updateBytes : List Byte → State → Host.Outcome State Fault Refusal
  | [], s => .next s
  | b :: bs, s => andThen (exec (.crcUpd b) s) (updateBytes bs)

/-- `crc16(s)`: CRC.INIT, CRC.UPD for each byte, CRC.GET; the result is payload bits 15:0 (R213). -/
def crc16Command (bytes : List Byte) (s : State) : Host.Outcome (State × Half) Fault Refusal :=
  andThen (exec .crcInit s) fun s₁ =>
    andThen (updateBytes bytes s₁) fun s₂ =>
      andThen (issue .crcGet s₂) fun (s₃, r) => .next (s₃, (payloadField r).setWidth 16)

/-! ### The single-cycle commands (46_commands.md R214 to R216) -/

/-- How a single-cycle command ends. -/
inductive CommandResult where
  /-- the pair the decode returned -/
  | decoded (r : DecResult)
  /-- the build raised, before any I/O (R214) -/
  | failed (e : OpError)
  /-- the Exchange failed in the transport (R212, 60_exceptions.md R245) -/
  | transportError
  /-- a decode's response word that is none of R99's five; no operation returns one -/
  | unreadable (r : RspWord)
  deriving DecidableEq, Repr

/-- The host's reading of a decode's response word (30_encoding.md R99). -/
def readResult (r : RspWord) : CommandResult :=
  match resultOf (payloadField r) with
  | some d => .decoded d
  | none => .unreadable r

/-- The second half of a cycle: load what arrived and decode it; a TransportError ends the command (R212, R214). -/
def decodeReply (dec : Instr) (r : Reply) (s : State) : Host.Outcome (State × CommandResult) Fault Refusal :=
  match r with
  | .transportError => .next (s, .transportError)
  | .bytes raw =>
    andThen (loadBytes raw s) fun s₁ =>
      andThen (issue dec s₁) fun (s₂, w) => .next (s₂, readResult w)

/-- The common shape of R214 to R216: build, read out, exchange, load, decode. An error of the build ends the command before any
I/O. -/
def busCycle (bld dec : Instr) (s : State) : Host.Outcome (State × CommandResult) Fault Refusal :=
  andThen (issue bld s) fun (s₁, w) =>
    match errorOf w with
    | some e => .next (s₁, .failed e)
    | none =>
      andThen (readFrame s₁) fun (s₂, f) => decodeReply dec s₂.nextReply (exchange f s₂)

/-- `RelayWrite{device, channel, action}` (R214). -/
def relayWrite (dev ch act : Byte) (s : State) : Host.Outcome (State × CommandResult) Fault Refusal :=
  busCycle (.bldRly dev ch act) .decRly s

/-- `InputRead{device, channel}` (R215). -/
def inputRead (dev ch : Byte) (s : State) : Host.Outcome (State × CommandResult) Fault Refusal :=
  busCycle (.bldDin dev ch) .decDin s

/-- `OutputRead{device, channel}` (R216). -/
def outputRead (dev ch : Byte) (s : State) : Host.Outcome (State × CommandResult) Fault Refusal :=
  busCycle (.bldOst dev ch) .decOst s

/-! ### The batch commands (46_commands.md R217 to R220) -/

/-- How a batch ends: with its result sequence, or early (R219, R220; log 17). -/
inductive BatchResult where
  | results (rs : List DecResult)
  | failed (e : OpError)
  | transportError
  | unreadable (r : RspWord)
  deriving DecidableEq, Repr

/-- One more result in front of a batch's sequence; an early end has no sequence (R220). -/
def BatchResult.withFirst (d : DecResult) : BatchResult → BatchResult
  | .results rs => .results (d :: rs)
  | .failed e => .failed e
  | .transportError => .transportError
  | .unreadable r => .unreadable r

/-- The cycles of a batch over the given channels, strictly in order. Timeout and Malformed are results and go on; an error of a
build and a TransportError end the batch (R219, R220). -/
def batchOver (cycle : Byte → State → Host.Outcome (State × CommandResult) Fault Refusal) :
    List Byte → State → Host.Outcome (State × BatchResult) Fault Refusal
  | [], s => .next (s, .results [])
  | ch :: chs, s =>
    andThen (cycle ch s) fun (s₁, r) =>
      match r with
      | .decoded d => andThen (batchOver cycle chs s₁) fun (s₂, b) => .next (s₂, b.withFirst d)
      | .failed e => .next (s₁, .failed e)
      | .transportError => .next (s₁, .transportError)
      | .unreadable w => .next (s₁, .unreadable w)

/-- Channels 1 to 8 in ascending order (R217, R218, R219(a)). -/
def batchChannels : List Byte := [1, 2, 3, 4, 5, 6, 7, 8]

/-- `RelayWriteAll{device, action}` (R217). -/
def relayWriteAll (dev act : Byte) (s : State) : Host.Outcome (State × BatchResult) Fault Refusal :=
  batchOver (fun ch => relayWrite dev ch act) batchChannels s

/-- `target` of StatusAll (R218). -/
inductive Target where
  | inputs
  | outputs
  deriving DecidableEq, Repr

/-- One cycle of StatusAll (R218). -/
def statusCycle (target : Target) (dev ch : Byte) (s : State) : Host.Outcome (State × CommandResult) Fault Refusal :=
  match target with
  | .inputs => inputRead dev ch s
  | .outputs => outputRead dev ch s

/-- `StatusAll{device, target}` (R218). -/
def statusAll (target : Target) (dev : Byte) (s : State) : Host.Outcome (State × BatchResult) Fault Refusal :=
  batchOver (statusCycle target dev) batchChannels s

end Sys2Proof.Machine
end

