-- ==== Sys2Proof/WellFormed.lean ====
section
/-! DEFINITION. Which instructions the spec calls well-formed: a build names a device address 1 to 247 (43_encoder.md R169), and
a request frame is one the block can emit (30_encoding.md R92). A channel or an action out of range is NOT ill-formed: the
operation takes it and raises (R84, R85). -/

namespace Sys2Proof

open Machine

/-- "a frame of the block further has that nibble in 1 to 8 (1 to 9 for the output-status read ...) and the CRC correct" (R92);
`top` is the nibble's largest value. -/
def frameFieldsWf (body : List Byte) (dev : Byte) (n : BitVec 4) (top : Nat) (crcLo crcHi : Byte) : Bool :=
  deviceInRange dev && (1 ≤ n.toNat && n.toNat ≤ top) && [crcLo, crcHi] == crc16Bytes body

/-- Well-formedness of an instruction. -/
def Instr.wf : Instr → Bool
  | .crcInit => true
  | .crcUpd _ => true
  | .crcGet => true
  | .mapRly _ _ => true
  | .mapDin _ => true
  | .mapOst _ => true
  | .bldRly dev _ _ => deviceInRange dev
  | .bldDin dev _ => deviceInRange dev
  | .bldOst dev _ => deviceInRange dev
  | .txRd _ => true
  | .rxClr => true
  | .rxPush _ => true
  | .decRly => true
  | .decDin => true
  | .decOst => true
  | .mode _ => true
  | .stat => true
  | .frameRlyOn dev n lo hi => frameFieldsWf [dev, 0x06, 0x00, 0#4 ++ n, 0x01, 0x00] dev n 8 lo hi
  | .frameRlyOff dev n lo hi => frameFieldsWf [dev, 0x06, 0x00, 0#4 ++ n, 0x02, 0x00] dev n 8 lo hi
  | .frameDinRd dev n lo hi => frameFieldsWf [dev, 0x03, 0x00, 8#4 ++ n, 0x00, 0x01] dev n 8 lo hi
  | .frameOstRd dev m lo hi => frameFieldsWf [dev, 0x03, 0x00, 0#4 ++ m, 0x00, 0x01] dev m 9 lo hi

end Sys2Proof
end

