-- ==== Sys2Proof/Safety.lean ====
section
/-! DEFINITION. What counts as a legal state and as a safe run: the invariants every step keeps, and the host's duties under which no
step stops. -/

namespace Sys2Proof.Machine

/-- A legal response word (30_encoding.md R86, R87): STATUS 0 to 3, bits 59:48 zero, PAYLOAD zero when STATUS is not 0. -/
def legalResponse (r : RspWord) : Bool :=
  decide ((statusField r).toNat ≤ 3) && decide (r.extractLsb' 48 12 = 0)
    && (statusField r == 0 || payloadField r == 0)

/-- The eight bytes are a request frame the block can emit (30_encoding.md R92): one of the four shapes, well-formed, and for the
output-status read a nibble `ch + OSTAT_OFFSET` of a channel 1 to 8. -/
def emittedFrame (offset : BitVec 1) (f : List Byte) : Bool :=
  match f with
  | [b0, b1, b2, b3, b4, b5, b6, b7] =>
    match decode (.rqf64 (packFrame b0 b1 b2 b3 b4 b5 b6 b7)) with
    | .instr (.frameOstRd dev m lo hi) =>
      (Instr.frameOstRd dev m lo hi).wf && (1 + offset.toNat ≤ m.toNat && m.toNat ≤ 8 + offset.toNat)
    | .instr i => i.wf
    | .reject _ => false
  | _ => false

/-- What holds of every state the block can be in. -/
structure State.Inv (s : State) : Prop where
  /-- TXF keeps the canonical form of an 8-byte buffer (20_memory.md R50) -/
  txf_wf : s.txf.wf txfSize = true
  /-- RXB keeps the canonical form of a 256-byte buffer (20_memory.md R50) -/
  rxb_wf : s.rxb.wf rxbSize = true
  /-- RXLEN is 0 to 256 (10_state.md R26) -/
  rxlen_le : s.rxlen.toNat ≤ rxbSize
  /-- TXV = 1 says TXF holds a frame the block built (10_state.md R25, 30_encoding.md R92) -/
  frame_built : s.txv = true → emittedFrame s.cfg.ostatOffset s.txBytes = true
  /-- every response word delivered is a legal one (30_encoding.md R86, R87) -/
  responses_legal : ∀ r ∈ s.responses, legalResponse r = true

/-- The host's duties for one wire word: a build names a device address 1 to 247 (43_encoder.md R169), and what is sent on the bus is
exactly the frame last built (70_reset_and_hazards.md R293, R294; log 8). -/
def wireDuty (w : Wire) (s : State) : Bool :=
  match w, decode w with
  | .cw32 _, .instr i => i.wf
  | .cw32 _, .reject _ => true
  | .rqf64 f, _ => s.txv && (List.range 8).map (frameByte f) == s.txBytes

/-- The host's duties for its next input. -/
def State.hostDuty (s : State) : Bool :=
  match s.inputs with
  | [] => true
  | .present w :: _ => wireDuty w s
  | .reset :: _ => true
  | .presentThenReset w :: _ => wireDuty (.cw32 w) s

end Sys2Proof.Machine
end

