-- ==== Sys2Proof/Certificates/Slice0/Obligations.lean ====
section
/-! DEFINITION. The statements for the provers, from the numbered rules of spec/. A next state is written out as the state before with
the fields that change, so that everything not named in it is unchanged: the registers, the flags, the instance parameter, the host's
and the bus's records, and every byte of both buffers. -/

section
open Sys2Proof Sys2Proof.Machine

/-! ### CRC generator (41_crc.md) -/

/-- 41_crc.md R124: CRC.INIT loads 0xFFFF, answers 0 and changes nothing else; its word is 0x10000000 and every other word with
OP = 1 is illegal. -/
def Obligations.CrcInitLoadsAllOnes : Prop :=
  (∀ s : State, exec .crcInit s = .next { s with crc := 0xFFFF, responses := s.responses ++ [0] }) ∧
  decode (.cw32 0x10000000) = .instr .crcInit ∧
  ∀ w : CmdWord, opField w = 0x1 → w ≠ 0x10000000 → decode (.cw32 w) = .reject .illegalCommand

/-- 41_crc.md R125: CRC.UPD b absorbs `b` into CRC (R122 is CrcStepsFollowTheRules), answers 0 and changes nothing else; its word is
0x200000bb; a non-zero RSV, KIND, DEV or CH is illegal. Byte 0x00 leaves CRC as it is exactly when CRC is 0x0000 or 0xC001: R125's remark
names 0x0000 only, and R122's own step has the second (log 19). -/
def Obligations.CrcUpdateAbsorbsOneByte : Prop :=
  (∀ (b : Byte) (s : State),
    exec (.crcUpd b) s = .next { s with crc := crcByte s.crc b, responses := s.responses ++ [0] }) ∧
  (∀ b : Byte, decode (.cw32 (0x20000000 + b.setWidth 32)) = .instr (.crcUpd b)) ∧
  (∀ w : CmdWord, opField w = 0x2 → (rsvField w ≠ 0 ∨ kindField w ≠ 0 ∨ devField w ≠ 0 ∨ chField w ≠ 0) →
    decode (.cw32 w) = .reject .illegalCommand) ∧
  ∀ c : Half, crcByte c 0x00 = c ↔ c = 0x0000 ∨ c = 0xC001

/-- 41_crc.md R126: CRC.GET answers CRC in payload bits 15:0 and changes nothing else; its word is 0x30000000. -/
def Obligations.CrcGetReturnsRegister : Prop :=
  (∀ s : State, exec .crcGet s = .next { s with responses := s.responses ++ [s.crc.setWidth 64] }) ∧
  decode (.cw32 0x30000000) = .instr .crcGet ∧
  ∀ w : CmdWord, opField w = 0x3 → w ≠ 0x30000000 → decode (.cw32 w) = .reject .illegalCommand

/-- 41_crc.md R121 and R122: the bit step, the byte step as exactly eight of them after the exclusive or, and the nine values of R125's
example. -/
def Obligations.CrcStepsFollowTheRules : Prop :=
  (∀ c : Half, crcBit c = if c.getLsbD 0 = true then (c >>> 1) ^^^ 0xA001 else c >>> 1) ∧
  (∀ (c : Half) (b : Byte), crcByte c b =
    crcBit (crcBit (crcBit (crcBit (crcBit (crcBit (crcBit (crcBit (c ^^^ b.setWidth 16))))))))) ∧
  (List.range 9).map (fun n => crcBits n (0xFFFF ^^^ 0x01)) =
    [0xFFFE, 0x7FFF, 0x9FFE, 0x4FFF, 0x87FE, 0x43FF, 0x81FE, 0x40FF, 0x807E]

/-- 41_crc.md R128: D0's three golden vectors, and R131's check value. -/
def Obligations.CrcGoldenVectors : Prop :=
  crc16Bytes [0x01, 0x06, 0x00, 0x01, 0x01, 0x00] = [0xD9, 0x9A] ∧
  crc16Bytes [0x01, 0x06, 0x00, 0x01, 0x02, 0x00] = [0xD9, 0x6A] ∧
  crc16Bytes [0x01, 0x03, 0x00, 0x01, 0x00, 0x01] = [0xD5, 0xCA] ∧
  crc16 [0x31, 0x32, 0x33, 0x34, 0x35, 0x36, 0x37, 0x38, 0x39] = 0x4B37

/-- 41_crc.md R127, 46_commands.md R213: CRC.INIT, CRC.UPD for each byte and CRC.GET give the crc16 of the bytes, from any state and
for any length, in `n + 2` operations, and write nothing but CRC. -/
def Obligations.CrcSequenceComputesCrc16 : Prop :=
  ∀ (bytes : List Byte) (s : State),
    crc16Command bytes s =
      .next ({ s with
        crc := bytes.foldl crcByte 0xFFFF
        responses := s.responses ++ List.replicate (bytes.length + 1) 0 ++ [(crc16 bytes).setWidth 64] },
        crc16 bytes)

/-- 41_crc.md R130 (a), (b), (d): the empty sequence, streaming, and the residue. -/
def Obligations.CrcStreamingAndResidue : Prop :=
  crc16 [] = 0xFFFF ∧
  (∀ u v : List Byte, crc16 (u ++ v) = v.foldl crcByte (crc16 u)) ∧
  ∀ u : List Byte, crc16 (u ++ crc16Bytes u) = 0

/-- 41_crc.md R130 (e): the byte step through the table `T[x] = crc_byte(0, x)`. -/
def Obligations.CrcByteThroughTable : Prop :=
  ∀ (c : Half) (b : Byte), crcByte c b = (c >>> 8) ^^^ crcByte 0 (c.setWidth 8 ^^^ b)

/-- 41_crc.md R130 (f): the steps are bijections, and two sequences that differ in exactly one byte have different CRCs. -/
def Obligations.CrcDetectsOneChangedByte : Prop :=
  Function.Bijective crcBit ∧
  (∀ b : Byte, Function.Bijective (fun c => crcByte c b)) ∧
  ∀ (u v : List Byte) (a b : Byte), a ≠ b → crc16 (u ++ a :: v) ≠ crc16 (u ++ b :: v)

/-! ### Register-address mapper (42_addrmap.md) -/

/-- 42_addrmap.md R145 with R141: MAP.RLY answers (0x06, ch, 0x0100 or 0x0200), InvalidChannel first, then InvalidAction, and changes
no state; its word is 0x4100ccaa; a non-zero RSV or DEV is illegal. -/
def Obligations.MapRelayResolves : Prop :=
  (∀ (ch act : Byte) (s : State),
    exec (.mapRly ch act) s = .next { s with responses := s.responses ++ [
      if ch.toNat < 1 ∨ 8 < ch.toNat then 0x1000000000000000
      else if act = 0x01 then BitVec.ofNat 64 (0x0600000100 + ch.toNat * 0x10000)
      else if act = 0x02 then BitVec.ofNat 64 (0x0600000200 + ch.toNat * 0x10000)
      else 0x2000000000000000] }) ∧
  (∀ ch act : Byte, decode (.cw32 (BitVec.ofNat 32 (0x41000000 + ch.toNat * 0x100 + act.toNat))) = .instr (.mapRly ch act)) ∧
  ∀ w : CmdWord, opField w = 0x4 → kindField w = 1 → (rsvField w ≠ 0 ∨ devField w ≠ 0) →
    decode (.cw32 w) = .reject .illegalCommand

/-- 42_addrmap.md R146 with R142: MAP.DIN answers (0x03, 0x0080 + ch, 0x0001) or InvalidChannel and changes no state; its word is
0x4200cc00; a non-zero RSV, DEV or ARG is illegal. -/
def Obligations.MapInputResolves : Prop :=
  (∀ (ch : Byte) (s : State),
    exec (.mapDin ch) s = .next { s with responses := s.responses ++ [
      if ch.toNat < 1 ∨ 8 < ch.toNat then 0x1000000000000000
      else BitVec.ofNat 64 (0x0300000001 + (0x80 + ch.toNat) * 0x10000)] }) ∧
  (∀ ch : Byte, decode (.cw32 (BitVec.ofNat 32 (0x42000000 + ch.toNat * 0x100))) = .instr (.mapDin ch)) ∧
  ∀ w : CmdWord, opField w = 0x4 → kindField w = 2 → (rsvField w ≠ 0 ∨ devField w ≠ 0 ∨ argField w ≠ 0) →
    decode (.cw32 w) = .reject .illegalCommand

/-- 42_addrmap.md R147 with R143: MAP.OST answers (0x03, ch + OSTAT_OFFSET, 0x0001), for either value of the instance's OSTAT_OFFSET,
or InvalidChannel, and changes no state; its word is 0x4300cc00; a non-zero RSV, DEV or ARG is illegal. -/
def Obligations.MapOutputStatusResolves : Prop :=
  (∀ (ch : Byte) (s : State),
    exec (.mapOst ch) s = .next { s with responses := s.responses ++ [
      if ch.toNat < 1 ∨ 8 < ch.toNat then 0x1000000000000000
      else BitVec.ofNat 64 (0x0300000001 + (ch.toNat + s.cfg.ostatOffset.toNat) * 0x10000)] }) ∧
  (∀ ch : Byte, decode (.cw32 (BitVec.ofNat 32 (0x43000000 + ch.toNat * 0x100))) = .instr (.mapOst ch)) ∧
  ∀ w : CmdWord, opField w = 0x4 → kindField w = 3 → (rsvField w ≠ 0 ∨ devField w ≠ 0 ∨ argField w ≠ 0) →
    decode (.cw32 w) = .reject .illegalCommand

/-! ### Request-frame encoder (43_encoder.md) -/

/-- 43_encoder.md R165 with R164: a good BLD.RLY leaves the eight bytes of the relay write in TXF, the CRC of the body in CRC and
TXV = 1, answers 0, and writes nothing else; no offset beyond the eight is touched. -/
def Obligations.BuildRelayFrame : Prop :=
  ∀ (dev ch act : Byte) (s : State), s.txf.wf txfSize = true → 1 ≤ dev.toNat → dev.toNat ≤ 247 → 1 ≤ ch.toNat → ch.toNat ≤ 8 →
    (act = 0x01 ∨ act = 0x02) →
    ∃ txf : Memory,
      exec (.bldRly dev ch act) s = .next { s with
        txf := txf
        txv := true
        crc := crc16 [dev, 0x06, 0x00, ch, act, 0x00]
        responses := s.responses ++ [0] } ∧
      (List.range 8).map txf.read =
        [dev, 0x06, 0x00, ch, act, 0x00,
          (crc16 [dev, 0x06, 0x00, ch, act, 0x00]).extractLsb' 0 8,
          (crc16 [dev, 0x06, 0x00, ch, act, 0x00]).extractLsb' 8 8] ∧
      ∀ i, 8 ≤ i → txf.read i = s.txf.read i

/-- 43_encoder.md R166 with R164: the same of BLD.DIN, with register address 0x0080 + ch. -/
def Obligations.BuildInputFrame : Prop :=
  ∀ (dev ch : Byte) (s : State), s.txf.wf txfSize = true → 1 ≤ dev.toNat → dev.toNat ≤ 247 → 1 ≤ ch.toNat → ch.toNat ≤ 8 →
    ∃ txf : Memory,
      exec (.bldDin dev ch) s = .next { s with
        txf := txf
        txv := true
        crc := crc16 [dev, 0x03, 0x00, 0x80 + ch, 0x00, 0x01]
        responses := s.responses ++ [0] } ∧
      (List.range 8).map txf.read =
        [dev, 0x03, 0x00, 0x80 + ch, 0x00, 0x01,
          (crc16 [dev, 0x03, 0x00, 0x80 + ch, 0x00, 0x01]).extractLsb' 0 8,
          (crc16 [dev, 0x03, 0x00, 0x80 + ch, 0x00, 0x01]).extractLsb' 8 8] ∧
      ∀ i, 8 ≤ i → txf.read i = s.txf.read i

/-- 43_encoder.md R167 with R164: the same of BLD.OST, with register address ch + OSTAT_OFFSET, for either value of the parameter. -/
def Obligations.BuildOutputStatusFrame : Prop :=
  ∀ (dev ch : Byte) (s : State), s.txf.wf txfSize = true → 1 ≤ dev.toNat → dev.toNat ≤ 247 → 1 ≤ ch.toNat → ch.toNat ≤ 8 →
    ∃ txf : Memory,
      exec (.bldOst dev ch) s = .next { s with
        txf := txf
        txv := true
        crc := crc16 [dev, 0x03, 0x00, ch + s.cfg.ostatOffset.setWidth 8, 0x00, 0x01]
        responses := s.responses ++ [0] } ∧
      (List.range 8).map txf.read =
        [dev, 0x03, 0x00, ch + s.cfg.ostatOffset.setWidth 8, 0x00, 0x01,
          (crc16 [dev, 0x03, 0x00, ch + s.cfg.ostatOffset.setWidth 8, 0x00, 0x01]).extractLsb' 0 8,
          (crc16 [dev, 0x03, 0x00, ch + s.cfg.ostatOffset.setWidth 8, 0x00, 0x01]).extractLsb' 8 8] ∧
      ∀ i, 8 ≤ i → txf.read i = s.txf.read i

/-- 43_encoder.md R164, 60_exceptions.md R241, R242, R247: a build with a bad channel or, the channel being good, a bad action clears TXV
and changes nothing else but the response. -/
def Obligations.FailedBuildClearsOnlyFrameValid : Prop :=
  ∀ (dev ch act : Byte) (s : State), 1 ≤ dev.toNat → dev.toNat ≤ 247 →
    ((ch.toNat < 1 ∨ 8 < ch.toNat) →
      exec (.bldRly dev ch act) s =
        .next { s with txv := false, responses := s.responses ++ [0x1000000000000000] } ∧
      exec (.bldDin dev ch) s =
        .next { s with txv := false, responses := s.responses ++ [0x1000000000000000] } ∧
      exec (.bldOst dev ch) s =
        .next { s with txv := false, responses := s.responses ++ [0x1000000000000000] }) ∧
    (1 ≤ ch.toNat → ch.toNat ≤ 8 → act ≠ 0x01 → act ≠ 0x02 →
      exec (.bldRly dev ch act) s =
        .next { s with txv := false, responses := s.responses ++ [0x2000000000000000] })

/-- 43_encoder.md R169: a build whose device address is 0 or 248 to 255 is refused whole, whatever the channel and the action. -/
def Obligations.BuildRefusesDeviceOutOfRange : Prop :=
  ∀ (dev ch act : Byte) (s : State), (dev.toNat = 0 ∨ 248 ≤ dev.toNat) →
    exec (.bldRly dev ch act) s = .refused .deviceOutOfRange ∧
    exec (.bldDin dev ch) s = .refused .deviceOutOfRange ∧
    exec (.bldOst dev ch) s = .refused .deviceOutOfRange

/-- 43_encoder.md R168: TX.RD i answers byte `i` of TXF when TXV = 1 and raises IllegalCommand when TXV = 0; either way no state
changes; its word is 0x6000000i, and every other word with OP = 6 is illegal. -/
def Obligations.ReadFrameByte : Prop :=
  (∀ (i : BitVec 3) (s : State), s.txv = true →
    exec (.txRd i) s = .next { s with responses := s.responses ++ [(s.txf.read i.toNat).setWidth 64] }) ∧
  (∀ (i : BitVec 3) (s : State), s.txv = false →
    exec (.txRd i) s = .next { s with responses := s.responses ++ [0x3000000000000000] }) ∧
  (∀ i : BitVec 3, decode (.cw32 (0x60000000 + i.setWidth 32)) = .instr (.txRd i)) ∧
  ∀ w : CmdWord, opField w = 0x6 →
    (rsvField w ≠ 0 ∨ kindField w ≠ 0 ∨ devField w ≠ 0 ∨ chField w ≠ 0 ∨ (argField w).extractLsb' 3 5 ≠ 0) →
    decode (.cw32 w) = .reject .illegalCommand

/-- 46_commands.md R211, 20_memory.md R57: reading the frame out with TX.RD 0 to TX.RD 7 gives the eight bytes of TXF in order and does
not consume them. -/
def Obligations.ReadoutGivesFrameAndKeepsIt : Prop :=
  ∀ s : State, s.txv = true →
    readFrame s = .next ({ s with responses := s.responses ++ s.txBytes.map (fun b => b.setWidth 64) }, s.txBytes)

/-- 30_encoding.md R92: the frame a good build leaves decodes to its own row of the table, with the operands it was built from, and
crc16 of all eight bytes is 0 (43_encoder.md R163(f)). -/
def Obligations.BuiltFrameHasItsShape : Prop :=
  ∀ (dev ch : Byte) (o : BitVec 1), 1 ≤ ch.toNat → ch.toNat ≤ 8 →
    (∀ act m, mapRelay ch act = .ok m →
      decode (.rqf64 ((buildFrame dev m).foldl (fun w b => (w <<< 8) ||| b.setWidth 64) 0)) =
        .instr (if act = 0x01
          then .frameRlyOn dev (ch.setWidth 4) ((buildFrame dev m).getD 6 0) ((buildFrame dev m).getD 7 0)
          else .frameRlyOff dev (ch.setWidth 4) ((buildFrame dev m).getD 6 0) ((buildFrame dev m).getD 7 0))) ∧
    (∀ m, mapInput ch = .ok m →
      decode (.rqf64 ((buildFrame dev m).foldl (fun w b => (w <<< 8) ||| b.setWidth 64) 0)) =
        .instr (.frameDinRd dev (ch.setWidth 4) ((buildFrame dev m).getD 6 0) ((buildFrame dev m).getD 7 0))) ∧
    (∀ m, mapOstat o ch = .ok m →
      decode (.rqf64 ((buildFrame dev m).foldl (fun w b => (w <<< 8) ||| b.setWidth 64) 0)) =
        .instr (.frameOstRd dev (ch.setWidth 4 + o.setWidth 4) ((buildFrame dev m).getD 6 0)
          ((buildFrame dev m).getD 7 0))) ∧
    ∀ m, crc16 (buildFrame dev m) = 0

/-- 43_encoder.md R163(e) with 42_addrmap.md R148(c): for a fixed OSTAT_OFFSET a frame determines the device, the kind, the channel and
the action it was built from. -/
def Obligations.FrameDeterminesRequest : Prop :=
  ∀ (o : BitVec 1) (dev dev' ch ch' act act' : Byte) (m m' : Mapping), buildFrame dev m = buildFrame dev' m' →
    (mapRelay ch act = .ok m → mapRelay ch' act' = .ok m' → dev = dev' ∧ ch = ch' ∧ act = act') ∧
    (mapInput ch = .ok m → mapInput ch' = .ok m' → dev = dev' ∧ ch = ch') ∧
    (mapOstat o ch = .ok m → mapOstat o ch' = .ok m' → dev = dev' ∧ ch = ch') ∧
    ¬ (mapRelay ch act = .ok m ∧ mapInput ch' = .ok m') ∧
    ¬ (mapRelay ch act = .ok m ∧ mapOstat o ch' = .ok m') ∧
    ¬ (mapInput ch = .ok m ∧ mapOstat o ch' = .ok m')

/-- 43_encoder.md R163(g), D0's round trip: a built frame pushed back passes the strict check, so that a strict decode of it reads what the
reference decode reads. -/
def Obligations.BuiltFramePassesStrictCheck : Prop :=
  ∀ (dev : Byte) (m : Mapping),
    (buildFrame dev m).length = 8 ∧
    (buildFrame dev m).drop 6 = crc16Bytes ((buildFrame dev m).take 6) ∧
    decodeRead true (buildFrame dev m) = decodeRead false (buildFrame dev m)

/-! ### Response decoder (44_decoder.md) -/

/-- 44_decoder.md R182: RX.CLR sets RXLEN to 0, answers 0 and changes nothing else; its word is 0x70000000. -/
def Obligations.ClearEmptiesResponse : Prop :=
  (∀ s : State, exec .rxClr s = .next { s with rxlen := 0, responses := s.responses ++ [0] }) ∧
  decode (.cw32 0x70000000) = .instr .rxClr ∧
  (∀ w : CmdWord, opField w = 0x7 → w ≠ 0x70000000 → decode (.cw32 w) = .reject .illegalCommand) ∧
  ∀ s t : State, exec .rxClr s = .next t → t.rxBytes = []

/-- 44_decoder.md R183: RX.PUSH b on a buffer that is not full stores `b` at offset RXLEN and nothing anywhere else, and adds one to
RXLEN; on a full one it raises IllegalCommand and changes nothing; its word is 0x800000bb. -/
def Obligations.PushStoresAtLength : Prop :=
  (∀ (b : Byte) (s : State), s.rxb.wf rxbSize = true → s.rxlen.toNat < 256 →
    ∃ rxb : Memory,
      exec (.rxPush b) s = .next { s with
        rxb := rxb
        rxlen := s.rxlen + 1
        responses := s.responses ++ [0] } ∧
      rxb.read s.rxlen.toNat = b ∧
      ∀ i, i ≠ s.rxlen.toNat → rxb.read i = s.rxb.read i) ∧
  (∀ (b : Byte) (s : State), s.rxlen.toNat = 256 →
    exec (.rxPush b) s = .next { s with responses := s.responses ++ [0x3000000000000000] }) ∧
  (∀ b : Byte, decode (.cw32 (0x80000000 + b.setWidth 32)) = .instr (.rxPush b)) ∧
  ∀ w : CmdWord, opField w = 0x8 → (rsvField w ≠ 0 ∨ kindField w ≠ 0 ∨ devField w ≠ 0 ∨ chField w ≠ 0) →
    decode (.cw32 w) = .reject .illegalCommand

/-- The model's choice (log 10): with RXLEN above 256, which no run reaches (InvariantKept), the operations that would leave RXB stop. -/
def Obligations.StopsBeyondResponseBuffer : Prop :=
  ∀ (b : Byte) (s : State), 256 < s.rxlen.toNat →
    exec (.rxPush b) s = .fault .rxbOffsetOutside ∧ exec .decRly s = .fault .rxbOffsetOutside ∧
    exec .decDin s = .fault .rxbOffsetOutside ∧ exec .decOst s = .fault .rxbOffsetOutside

/-- 46_commands.md R211, 20_memory.md R53: loading bytes appends them, in order, to the response, and writes nothing but RXB from RXLEN
up and RXLEN. -/
def Obligations.LoadAppendsBytes : Prop :=
  ∀ (raw : List Byte) (s : State), s.rxb.wf rxbSize = true → s.rxlen.toNat + raw.length ≤ 256 →
    ∃ (rxb : Memory) (rxlen : BitVec 9),
      loadBytes raw s = .next { s with
        rxb := rxb
        rxlen := rxlen
        responses := s.responses ++ List.replicate raw.length 0 } ∧
      rxlen.toNat = s.rxlen.toNat + raw.length ∧
      (List.range rxlen.toNat).map rxb.read = s.rxBytes ++ raw ∧
      ∀ i, i < s.rxlen.toNat ∨ rxlen.toNat ≤ i → rxb.read i = s.rxb.read i

/-- 44_decoder.md R185 with R184 and R187: DEC.RLY answers (Unknown, Timeout) on an empty buffer and (Acknowledged, None) otherwise, in
either mode, sets RXLEN to 0 and changes nothing else, CRC included; its word is 0x91000000; any non-zero RSV, DEV, CH or ARG is
illegal. -/
def Obligations.DecodeWriteAcknowledges : Prop :=
  (∀ s : State, s.rxlen.toNat ≤ 256 →
    exec .decRly s = .next { s with
      rxlen := 0
      responses := s.responses ++ [if s.rxlen = 0 then 0x6 else 0x3] }) ∧
  decode (.cw32 0x91000000) = .instr .decRly ∧
  ∀ w : CmdWord, opField w = 0x9 → kindField w = 1 → w ≠ 0x91000000 → decode (.cw32 w) = .reject .illegalCommand

/-- 44_decoder.md R188, R189 with R186 and R187, reference mode: DEC.DIN and DEC.OST answer Timeout on 0 bytes, Malformed on 1 to 4, else On
when byte 4 is 0x01 and Off otherwise, set RXLEN to 0 and change nothing else. -/
def Obligations.DecodeReadReferenceMode : Prop :=
  ∀ s : State, s.strict = false → s.rxlen.toNat ≤ 256 →
    ∃ t : State,
      t = { s with
        rxlen := 0
        responses := s.responses ++ [
          if s.rxlen.toNat = 0 then 0x6
          else if s.rxlen.toNat < 5 then 0xA
          else if s.rxb.read 4 = 0x01 then 0x1 else 0x0] } ∧
      exec .decDin s = .next t ∧ exec .decOst s = .next t

/-- 44_decoder.md R188, R189 with R186 and R187, strict mode: with five bytes or more the last two are compared with the CRC of the rest, low
byte first; a mismatch is Malformed; CRC is left holding the CRC computed, matched or not. With fewer bytes the mode changes nothing. -/
def Obligations.DecodeReadStrictMode : Prop :=
  ∀ s : State, s.strict = true → s.rxlen.toNat ≤ 256 →
    ∃ t : State,
      t = { s with
        rxlen := 0
        crc := if s.rxlen.toNat < 5 then s.crc
          else crc16 ((List.range (s.rxlen.toNat - 2)).map s.rxb.read)
        responses := s.responses ++ [
          if s.rxlen.toNat = 0 then 0x6
          else if s.rxlen.toNat < 5 then 0xA
          else if (crc16 ((List.range (s.rxlen.toNat - 2)).map s.rxb.read)).extractLsb' 0 8
                = s.rxb.read (s.rxlen.toNat - 2) ∧
              (crc16 ((List.range (s.rxlen.toNat - 2)).map s.rxb.read)).extractLsb' 8 8
                = s.rxb.read (s.rxlen.toNat - 1)
            then (if s.rxb.read 4 = 0x01 then 0x1 else 0x0)
          else 0xA] } ∧
      exec .decDin s = .next t ∧ exec .decOst s = .next t

/-- 44_decoder.md R181, 30_encoding.md R99: a read decode returns one of four results, a write decode one of two, and the codes of the five
results are the ones given. -/
def Obligations.OnlyFiveResults : Prop :=
  (∀ (strict : Bool) (raw : List Byte), decodeRead strict raw ∈
    ([⟨.on, .none⟩, ⟨.off, .none⟩, ⟨.unknown, .timeout⟩, ⟨.unknown, .malformed⟩] : List DecResult)) ∧
  (∀ raw : List Byte, decodeWrite raw ∈ ([⟨.acknowledged, .none⟩, ⟨.unknown, .timeout⟩] : List DecResult)) ∧
  resultPayload ⟨.off, .none⟩ = 0x0 ∧ resultPayload ⟨.on, .none⟩ = 0x1 ∧ resultPayload ⟨.acknowledged, .none⟩ = 0x3 ∧
  resultPayload ⟨.unknown, .timeout⟩ = 0x6 ∧ resultPayload ⟨.unknown, .malformed⟩ = 0xA

/-- 70_reset_and_hazards.md R292(a), 20_memory.md R57: a decode straight after a decode returns (Unknown, Timeout), whatever the two
decodes are. -/
def Obligations.SecondDecodeTimesOut : Prop :=
  ∀ (d d' : Instr) (s t : State), d ∈ [Instr.decRly, .decDin, .decOst] → d' ∈ [Instr.decRly, .decDin, .decOst] →
    exec d s = .next t → exec d' t = .next { t with responses := t.responses ++ [0x6] }

/-- 44_decoder.md R190(d): a well-formed reply followed by any number of 0x00 bytes still passes the strict check. -/
def Obligations.StrictAcceptsTrailingZeros : Prop :=
  ∀ (body : List Byte) (k : Nat), 3 ≤ body.length →
    decodeRead true (body ++ crc16Bytes body ++ List.replicate k 0x00) =
      if (body ++ crc16Bytes body).getD 4 0 = 0x01 then ⟨.on, .none⟩ else ⟨.off, .none⟩

/-! ### System operations (45_system.md) -/

/-- 45_system.md R201: MODE s sets CTRL.STRICT to `s`, answers 0 and changes nothing else; its word is 0xA000000s. -/
def Obligations.ModeSetsStrict : Prop :=
  (∀ s : State, exec (.mode 1) s = .next { s with strict := true, responses := s.responses ++ [0] } ∧
    exec (.mode 0) s = .next { s with strict := false, responses := s.responses ++ [0] }) ∧
  (∀ m : BitVec 1, decode (.cw32 (0xA0000000 + m.setWidth 32)) = .instr (.mode m)) ∧
  ∀ w : CmdWord, opField w = 0xA →
    (rsvField w ≠ 0 ∨ kindField w ≠ 0 ∨ devField w ≠ 0 ∨ chField w ≠ 0 ∨ (argField w).extractLsb' 1 7 ≠ 0) →
    decode (.cw32 w) = .reject .illegalCommand

/-- 45_system.md R202, 30_encoding.md R89: STAT answers bit 0 STRICT, bit 1 TXV, bit 4 OSTAT_OFFSET, bits 16:8 RXLEN and zeros, and
changes nothing; its word is 0xB0000000. -/
def Obligations.StatusViewReadsState : Prop :=
  (∀ s : State, exec .stat s = .next { s with responses := s.responses ++ [BitVec.ofNat 64
    ((if s.strict then 1 else 0) + (if s.txv then 2 else 0) + 16 * s.cfg.ostatOffset.toNat + 256 * s.rxlen.toNat)] }) ∧
  decode (.cw32 0xB0000000) = .instr .stat ∧
  ∀ w : CmdWord, opField w = 0xB → w ≠ 0xB0000000 → decode (.cw32 w) = .reject .illegalCommand

/-! ### Encodings (30_encoding.md) -/

/-- 30_encoding.md R82: a word `w` is an operation exactly when `w & mask = match`, with the operands at the bits the table gives. -/
def Obligations.CommandPatternsDecode : Prop :=
  ∀ w : CmdWord,
    (decode (.cw32 w) = .instr .crcInit ↔ w &&& 0xFFFFFFFF = 0x10000000) ∧
    (decode (.cw32 w) = .instr (.crcUpd (w.extractLsb' 0 8)) ↔ w &&& 0xFFFFFF00 = 0x20000000) ∧
    (decode (.cw32 w) = .instr .crcGet ↔ w &&& 0xFFFFFFFF = 0x30000000) ∧
    (decode (.cw32 w) = .instr (.mapRly (w.extractLsb' 8 8) (w.extractLsb' 0 8)) ↔ w &&& 0xFFFF0000 = 0x41000000) ∧
    (decode (.cw32 w) = .instr (.mapDin (w.extractLsb' 8 8)) ↔ w &&& 0xFFFF00FF = 0x42000000) ∧
    (decode (.cw32 w) = .instr (.mapOst (w.extractLsb' 8 8)) ↔ w &&& 0xFFFF00FF = 0x43000000) ∧
    (decode (.cw32 w) = .instr (.bldRly (w.extractLsb' 16 8) (w.extractLsb' 8 8) (w.extractLsb' 0 8)) ↔
      w &&& 0xFF000000 = 0x51000000) ∧
    (decode (.cw32 w) = .instr (.bldDin (w.extractLsb' 16 8) (w.extractLsb' 8 8)) ↔ w &&& 0xFF0000FF = 0x52000000) ∧
    (decode (.cw32 w) = .instr (.bldOst (w.extractLsb' 16 8) (w.extractLsb' 8 8)) ↔ w &&& 0xFF0000FF = 0x53000000) ∧
    (decode (.cw32 w) = .instr (.txRd (w.extractLsb' 0 3)) ↔ w &&& 0xFFFFFFF8 = 0x60000000) ∧
    (decode (.cw32 w) = .instr .rxClr ↔ w &&& 0xFFFFFFFF = 0x70000000) ∧
    (decode (.cw32 w) = .instr (.rxPush (w.extractLsb' 0 8)) ↔ w &&& 0xFFFFFF00 = 0x80000000) ∧
    (decode (.cw32 w) = .instr .decRly ↔ w &&& 0xFFFFFFFF = 0x91000000) ∧
    (decode (.cw32 w) = .instr .decDin ↔ w &&& 0xFFFFFFFF = 0x92000000) ∧
    (decode (.cw32 w) = .instr .decOst ↔ w &&& 0xFFFFFFFF = 0x93000000) ∧
    (decode (.cw32 w) = .instr (.mode (w.extractLsb' 0 1)) ↔ w &&& 0xFFFFFFFE = 0xA0000000) ∧
    (decode (.cw32 w) = .instr .stat ↔ w &&& 0xFFFFFFFF = 0xB0000000)

/-- 30_encoding.md R92: the four request-frame shapes under their mask, with the open fields at their places. -/
def Obligations.FramePatternsDecode : Prop :=
  ∀ f : FrameWord,
    (decode (.rqf64 f) = .instr (.frameRlyOn (f.extractLsb' 56 8) (f.extractLsb' 32 4) (f.extractLsb' 8 8) (f.extractLsb' 0 8)) ↔
      f &&& 0x00FFFFF0FFFF0000 = 0x0006000001000000) ∧
    (decode (.rqf64 f) = .instr (.frameRlyOff (f.extractLsb' 56 8) (f.extractLsb' 32 4) (f.extractLsb' 8 8) (f.extractLsb' 0 8)) ↔
      f &&& 0x00FFFFF0FFFF0000 = 0x0006000002000000) ∧
    (decode (.rqf64 f) = .instr (.frameDinRd (f.extractLsb' 56 8) (f.extractLsb' 32 4) (f.extractLsb' 8 8) (f.extractLsb' 0 8)) ↔
      f &&& 0x00FFFFF0FFFF0000 = 0x0003008000010000) ∧
    (decode (.rqf64 f) = .instr (.frameOstRd (f.extractLsb' 56 8) (f.extractLsb' 32 4) (f.extractLsb' 8 8) (f.extractLsb' 0 8)) ↔
      f &&& 0x00FFFFF0FFFF0000 = 0x0003000000010000)

/-- 30_encoding.md R82, R92: decoding an encoded instruction gives it back, for every instruction with every operand at every value. -/
def Obligations.DecodeOfEncodeIsIdentity : Prop :=
  ∀ i : Instr, decode (encode i) = .instr i

/-- 30_encoding.md R82, R92: each wire word that decodes is the one encoding of what it decodes to. -/
def Obligations.EncodeOfDecodeIsIdentity : Prop :=
  ∀ (w : Wire) (i : Instr), decode w = .instr i → encode i = w

/-- 30_encoding.md R94: exactly the words listed there are illegal. -/
def Obligations.IllegalWordsAreExactlyThese : Prop :=
  ∀ w : CmdWord, decode (.cw32 w) = .reject .illegalCommand ↔
    ((opField w = 0 ∨ 0xC ≤ (opField w).toNat) ∨
     rsvField w ≠ 0 ∨
     (kindField w = 0 ∧ opField w ∈ [0x4, 0x5, 0x9]) ∨
     (kindField w ≠ 0 ∧ opField w ∉ [0x4, 0x5, 0x9]) ∨
     (devField w ≠ 0 ∧ opField w ≠ 0x5) ∨
     (chField w ≠ 0 ∧ opField w ∉ [0x4, 0x5]) ∨
     (argField w ≠ 0 ∧ (opField w ∈ [0x1, 0x3, 0x7, 0x9, 0xB] ∨ (opField w ∈ [0x4, 0x5] ∧ kindField w ≠ 1))) ∨
     ((argField w).extractLsb' 3 5 ≠ 0 ∧ opField w = 0x6) ∨
     ((argField w).extractLsb' 1 7 ≠ 0 ∧ opField w = 0xA))

/-- Words of 95_test_vectors.md, one or more per family, decode to what they stand for. -/
def Obligations.SampleWordsDecode : Prop :=
  decode (.cw32 0x20000001) = .instr (.crcUpd 0x01) ∧
  decode (.cw32 0x41000301) = .instr (.mapRly 3 0x01) ∧
  decode (.cw32 0x43000200) = .instr (.mapOst 2) ∧
  decode (.cw32 0x51F70802) = .instr (.bldRly 247 8 0x02) ∧
  decode (.cw32 0x52010100) = .instr (.bldDin 1 1) ∧
  decode (.cw32 0x60000007) = .instr (.txRd 7) ∧
  decode (.cw32 0x80000084) = .instr (.rxPush 0x84) ∧
  decode (.cw32 0x93000000) = .instr .decOst ∧
  decode (.cw32 0xA0000001) = .instr (.mode 1) ∧
  decode (.rqf64 0x010300810001D422) = .instr (.frameDinRd 1 1 0xD4 0x22) ∧
  decode (.cw32 0x5D010101) = .reject .illegalCommand

/-! ### The step (10_state.md R21, 20_memory.md R62, 70_reset_and_hazards.md R280, R281) -/

/-- A step takes what the host presents next, and when that decodes to an instruction it is exec of the instruction. For a command word
this is 10_state.md R21 and 20_memory.md R62. For a request frame it is the model's choice: R92 says that nothing of the block is dispatched
on a frame, and that presenting one has the step make its Exchange rests on log 5 (DEDUCED) and log 3 (DESIGN CHOICE: the list of inputs). -/
def Obligations.StepRunsPresentedInstruction : Prop :=
  ∀ (s : State) (w : Wire) (rest : List Input) (i : Instr), s.inputs = .present w :: rest → decode w = .instr i →
    step s = exec i { s with inputs := rest }

/-- 60_exceptions.md R243(a): a command word that matches no pattern is answered with IllegalCommand and changes no state. -/
def Obligations.IllegalWordAnsweredWithoutEffect : Prop :=
  ∀ (s : State) (w : CmdWord) (rest : List Input), s.inputs = .present (.cw32 w) :: rest →
    decode (.cw32 w) = .reject .illegalCommand →
    step s = .next { s with inputs := rest, responses := s.responses ++ [0x3000000000000000] }

/-- The model's choices: with nothing presented the block stays idle (log 3); eight bytes that are no request frame are refused
(log 7). -/
def Obligations.StepIdlesAndRefusesOtherFrames : Prop :=
  (∀ s : State, s.inputs = [] → step s = .next s) ∧
  ∀ (s : State) (f : FrameWord) (rest : List Input) (r : Reject), s.inputs = .present (.rqf64 f) :: rest →
    decode (.rqf64 f) = .reject r → step s = .refused .notRequestFrame

/-- 70_reset_and_hazards.md R280: `rst` puts CRC, TXV, RXLEN and CTRL.STRICT at their reset values, delivers nothing and leaves
OSTAT_OFFSET. -/
def Obligations.ResetInputResetsBlock : Prop :=
  ∀ (s : State) (rest : List Input), s.inputs = .reset :: rest →
    ∃ t, step s = .next t ∧ t.crc = 0xFFFF ∧ t.txv = false ∧ t.rxlen = 0 ∧ t.strict = false ∧ t.cfg = s.cfg ∧
      t.inputs = rest ∧ t.responses = s.responses ∧ t.bus = s.bus

/-- 70_reset_and_hazards.md R281: an accepted command word cut short by `rst`, an instruction or an illegal word (30_encoding.md R94), gets no
response and leaves the reset values, whatever its operation had done. The last clause, that the whole state is the one `rst` alone leaves,
also equates TXF and RXB, which R280 and 10_state.md R35 leave unspecified: there it rests on the model's choice of 00 (log 11, unsafe), not
on R281. The premises leave out the words the model stops on: a build with a device address out of range (43_encoder.md R169, log 9) and an
RXLEN that no run reaches (log 10). -/
def Obligations.ResetAbandonsOperation : Prop :=
  ∀ (s : State) (w : CmdWord) (rest : List Input), s.inputs = .presentThenReset w :: rest →
    ((∃ i, decode (.cw32 w) = .instr i ∧ i.wf = true ∧ s.rxlen.toNat ≤ 256) ∨ decode (.cw32 w) = .reject .illegalCommand) →
    ∃ t, step s = .next t ∧ t.crc = 0xFFFF ∧ t.txv = false ∧ t.rxlen = 0 ∧ t.strict = false ∧ t.cfg = s.cfg ∧
      t.inputs = rest ∧ t.responses = s.responses ∧ t.bus = s.bus ∧ t.replies = s.replies ∧ t.draws = s.draws ∧
      step { s with inputs := .reset :: rest } = .next t

/-- 10_state.md R35: the values the spec gives for reset. -/
def Obligations.ResetValues : Prop :=
  State.reset.crc = 0xFFFF ∧ State.reset.txv = false ∧ State.reset.rxlen = 0 ∧ State.reset.strict = false

/-! ### Invariants and whole-machine rules -/

/-- The invariant holds at reset. -/
def Obligations.InvariantAtReset : Prop := State.reset.Inv

/-- Every step keeps the invariant: the canonical form of both buffers, RXLEN at most 256 (10_state.md R26), a frame the block built
wherever TXV = 1 (R25, 30_encoding.md R92), and only legal response words (30_encoding.md R86, R87). -/
def Obligations.InvariantKept : Prop :=
  ∀ s t : State, s.Inv → step s = .next t → t.Inv

/-- From a state that meets the invariant, and with a host that keeps its duties (43_encoder.md R169, 70_reset_and_hazards.md R293, R294),
a step never stops: it answers a next state (70_reset_and_hazards.md R300: every accepted command gets its response). -/
def Obligations.DutifulHostNeverStops : Prop :=
  ∀ s : State, s.Inv → s.hostDuty = true → ∃ t, step s = .next t

/-- 10_state.md R20, the column "written by": which instructions can change which element, that a build changes CRC and TXF only on success
(TXV = 1 after it), and that none changes OSTAT_OFFSET. -/
def Obligations.OnlyTheseWriteEachElement : Prop :=
  ∀ (i : Instr) (s t : State), exec i s = .next t →
    (t.crc ≠ s.crc → i = .crcInit ∨ (∃ b, i = .crcUpd b) ∨ (∃ d c a, i = .bldRly d c a) ∨ (∃ d c, i = .bldDin d c) ∨
      (∃ d c, i = .bldOst d c) ∨ ((i = .decDin ∨ i = .decOst) ∧ s.strict = true ∧ 5 ≤ s.rxlen.toNat)) ∧
    ((∃ d c a, i = .bldRly d c a) ∨ (∃ d c, i = .bldDin d c) ∨ (∃ d c, i = .bldOst d c) → t.crc ≠ s.crc → t.txv = true) ∧
    (t.txf ≠ s.txf ∨ t.txv ≠ s.txv → (∃ d c a, i = .bldRly d c a) ∨ (∃ d c, i = .bldDin d c) ∨ (∃ d c, i = .bldOst d c)) ∧
    (t.txf ≠ s.txf → t.txv = true) ∧
    (t.rxb ≠ s.rxb → ∃ b, i = .rxPush b) ∧
    (t.rxlen ≠ s.rxlen → i = .rxClr ∨ (∃ b, i = .rxPush b) ∨ i = .decRly ∨ i = .decDin ∨ i = .decOst) ∧
    (t.strict ≠ s.strict → ∃ m, i = .mode m) ∧
    t.cfg = s.cfg

/-- 60_exceptions.md R247, R249, 70_reset_and_hazards.md R282: an operation gets exactly one response word, a legal one, and when its STATUS
is not 0 nothing has changed but TXV, cleared by a build. -/
def Obligations.ErrorsArePrecise : Prop :=
  ∀ (w : CmdWord) (i : Instr) (s t : State), decode (.cw32 w) = .instr i → exec i s = .next t →
    ∃ r : RspWord, t.responses = s.responses ++ [r] ∧ legalResponse r = true ∧
      (r.extractLsb' 60 4 ≠ 0 →
        t = { s with responses := t.responses } ∨
        (t = { s with txv := false, responses := t.responses } ∧
          ((∃ d c a, i = .bldRly d c a) ∨ (∃ d c, i = .bldDin d c) ∨ (∃ d c, i = .bldOst d c))))

/-- 10_state.md R33: what each result depends on. MAP and BLD on no state but OSTAT_OFFSET; TX.RD on the frame; a decode on the bytes pushed
and CTRL.STRICT; CRC.UPD and CRC.GET on CRC. (The responses of STAT and of RX.PUSH are pinned by StatusViewReadsState and PushStoresAtLength.) -/
def Obligations.ResultsDependOnlyOnWhatWasLoaded : Prop :=
  ∀ s s' t t' : State, s.cfg = s'.cfg →
    (∀ i : Instr, (∃ c a, i = .mapRly c a) ∨ (∃ c, i = .mapDin c) ∨ (∃ c, i = .mapOst c) →
      exec i s = .next t → exec i s' = .next t' → t.lastResponse = t'.lastResponse) ∧
    (∀ i : Instr, (∃ d c a, i = .bldRly d c a) ∨ (∃ d c, i = .bldDin d c) ∨ (∃ d c, i = .bldOst d c) →
      s.txf.wf txfSize = true → s'.txf.wf txfSize = true → exec i s = .next t → exec i s' = .next t' →
      t.lastResponse = t'.lastResponse ∧ t.txv = t'.txv ∧ (t.txv = true → t.txBytes = t'.txBytes ∧ t.crc = t'.crc)) ∧
    (∀ k : BitVec 3, s.txv = s'.txv → s.txBytes = s'.txBytes → exec (.txRd k) s = .next t → exec (.txRd k) s' = .next t' →
      t.lastResponse = t'.lastResponse) ∧
    (∀ i ∈ [Instr.decRly, .decDin, .decOst], s.strict = s'.strict → s.rxBytes = s'.rxBytes → exec i s = .next t →
      exec i s' = .next t' → t.lastResponse = t'.lastResponse ∧
        (i ≠ .decRly → s.strict = true → 5 ≤ s.rxlen.toNat → t.crc = t'.crc)) ∧
    (∀ b : Byte, s.crc = s'.crc → exec (.crcUpd b) s = .next t → exec (.crcUpd b) s' = .next t' → t.crc = t'.crc) ∧
    (s.crc = s'.crc → exec .crcGet s = .next t → exec .crcGet s' = .next t' → t.lastResponse = t'.lastResponse)

/-! ### The bus and the host's commands (46_commands.md) -/

/-- The four request-frame rows, as Exchanges (30_encoding.md R92, 46_commands.md R212; log 5): the eight bytes go on the bus, the reply
is the next of the environment's, and no element of the block changes. A failed Exchange is recorded in the same form (log 21). -/
def Obligations.FrameRowsAreExchanges : Prop :=
  ∀ (dev : Byte) (n : BitVec 4) (lo hi : Byte) (s : State),
    exec (.frameRlyOn dev n lo hi) s = .next { s with
      bus := s.bus ++ [{ frame := [dev, 0x06, 0x00, n.setWidth 8, 0x01, 0x00, lo, hi], reply := s.nextReply }]
      replies := s.replies.tail, draws := s.draws + 1 } ∧
    exec (.frameRlyOff dev n lo hi) s = .next { s with
      bus := s.bus ++ [{ frame := [dev, 0x06, 0x00, n.setWidth 8, 0x02, 0x00, lo, hi], reply := s.nextReply }]
      replies := s.replies.tail, draws := s.draws + 1 } ∧
    exec (.frameDinRd dev n lo hi) s = .next { s with
      bus := s.bus ++ [{ frame := [dev, 0x03, 0x00, 0x80 + n.setWidth 8, 0x00, 0x01, lo, hi], reply := s.nextReply }]
      replies := s.replies.tail, draws := s.draws + 1 } ∧
    exec (.frameOstRd dev n lo hi) s = .next { s with
      bus := s.bus ++ [{ frame := [dev, 0x03, 0x00, n.setWidth 8, 0x00, 0x01, lo, hi], reply := s.nextReply }]
      replies := s.replies.tail, draws := s.draws + 1 }

/-- 46_commands.md R212: an Exchange brings back TransportError or at most 256 bytes, whatever the environment draws. -/
def Obligations.ReplyIsBounded : Prop :=
  ∀ (s : State) (raw : List Byte), s.nextReply = .bytes raw → raw.length ≤ 256

/-- 46_commands.md R214: RelayWrite makes one Exchange, of the relay write frame of the request, and gives the write decode of what came back,
for whatever the environment answers; TransportError ends it; the buffer is empty again. That an Exchange that failed stands in `bus` is the
model's choice (log 21). -/
def Obligations.RelayWriteCycle : Prop :=
  ∀ (dev ch act : Byte) (s : State), s.Inv → s.rxlen = 0 → 1 ≤ dev.toNat → dev.toNat ≤ 247 → 1 ≤ ch.toNat → ch.toNat ≤ 8 →
    (act = 0x01 ∨ act = 0x02) →
    ∃ t, relayWrite dev ch act s = .next (t, match s.nextReply with
        | .transportError => .transportError
        | .bytes raw => .decoded (if raw = [] then ⟨.unknown, .timeout⟩ else ⟨.acknowledged, .none⟩)) ∧
      t.bus = s.bus ++ [{
        frame := [dev, 0x06, 0x00, ch, act, 0x00] ++ crc16Bytes [dev, 0x06, 0x00, ch, act, 0x00]
        reply := s.nextReply }] ∧
      t.rxlen = 0 ∧ t.strict = s.strict ∧ t.cfg = s.cfg ∧ t.replies = s.replies.tail

/-- 46_commands.md R215, R216: InputRead and OutputRead make one Exchange, of the read frame of the request, and give the read decode, in the
mode in force, of what came back; TransportError ends them. That an Exchange that failed stands in `bus` is the model's choice (log 21). -/
def Obligations.ReadCycles : Prop :=
  ∀ (dev ch : Byte) (s : State), s.Inv → s.rxlen = 0 → 1 ≤ dev.toNat → dev.toNat ≤ 247 → 1 ≤ ch.toNat → ch.toNat ≤ 8 →
    (∃ t, inputRead dev ch s = .next (t, match s.nextReply with
        | .transportError => .transportError
        | .bytes raw => .decoded (decodeRead s.strict raw)) ∧
      t.bus = s.bus ++ [{
        frame := [dev, 0x03, 0x00, 0x80 + ch, 0x00, 0x01] ++ crc16Bytes [dev, 0x03, 0x00, 0x80 + ch, 0x00, 0x01]
        reply := s.nextReply }] ∧
      t.rxlen = 0 ∧ t.strict = s.strict ∧ t.cfg = s.cfg ∧ t.replies = s.replies.tail) ∧
    ∃ t, outputRead dev ch s = .next (t, match s.nextReply with
        | .transportError => .transportError
        | .bytes raw => .decoded (decodeRead s.strict raw)) ∧
      t.bus = s.bus ++ [{
        frame := [dev, 0x03, 0x00, ch + s.cfg.ostatOffset.setWidth 8, 0x00, 0x01] ++
          crc16Bytes [dev, 0x03, 0x00, ch + s.cfg.ostatOffset.setWidth 8, 0x00, 0x01]
        reply := s.nextReply }] ∧
      t.rxlen = 0 ∧ t.strict = s.strict ∧ t.cfg = s.cfg ∧ t.replies = s.replies.tail

/-- 70_reset_and_hazards.md R293, 46_commands.md R214, R215, R216, R220: a command whose build raises ends there, before any I/O, and so does a
batch with an action that is none. -/
def Obligations.BuildErrorEndsCommandBeforeIO : Prop :=
  ∀ (dev ch act : Byte) (s : State), 1 ≤ dev.toNat → dev.toNat ≤ 247 →
    ((ch.toNat < 1 ∨ 8 < ch.toNat) →
      relayWrite dev ch act s =
        .next ({ s with txv := false, responses := s.responses ++ [0x1000000000000000] }, .failed .invalidChannel) ∧
      inputRead dev ch s =
        .next ({ s with txv := false, responses := s.responses ++ [0x1000000000000000] }, .failed .invalidChannel) ∧
      outputRead dev ch s =
        .next ({ s with txv := false, responses := s.responses ++ [0x1000000000000000] }, .failed .invalidChannel)) ∧
    (act ≠ 0x01 → act ≠ 0x02 →
      (1 ≤ ch.toNat → ch.toNat ≤ 8 → relayWrite dev ch act s =
        .next ({ s with txv := false, responses := s.responses ++ [0x2000000000000000] }, .failed .invalidAction)) ∧
      relayWriteAll dev act s =
        .next ({ s with txv := false, responses := s.responses ++ [0x2000000000000000] }, .failed .invalidAction))

/-- 46_commands.md R218, R219: StatusAll polls channels 1 to 8 once each in ascending order and answers eight results in that order, each the
decode of what came back in its own cycle; no timeout and no malformed reply ends it. The first clause is for eight replies that a scenario
fixes, the second for whatever the environment answers, drawn replies included: the batch runs to its eighth result or ends at the first
TransportError (that it ends there: log 17, DESIGN CHOICE; that the failed Exchange stands in `bus`: log 21). -/
def Obligations.StatusBatchPollsEightInOrder : Prop :=
  ∀ (target : Target) (dev : Byte) (s : State), s.Inv → s.rxlen = 0 → 1 ≤ dev.toNat → dev.toNat ≤ 247 →
    let frame (ch : Byte) : List Byte := buildFrame dev {
      fc := 0x03
      addr := match target with
        | .inputs => 0x0080 + ch.setWidth 16
        | .outputs => ch.setWidth 16 + s.cfg.ostatOffset.setWidth 16
      data := 0x0001 }
    (∀ (raws : List (List Byte)) (rest : List Reply), raws.length = 8 → (∀ raw ∈ raws, raw.length ≤ 256) →
      s.replies = raws.map Reply.bytes ++ rest →
      ∃ t, statusAll target dev s = .next (t, .results (raws.map (decodeRead s.strict))) ∧
        t.replies = rest ∧ t.rxlen = 0 ∧
        t.bus.map Cycle.reply = s.bus.map Cycle.reply ++ raws.map Reply.bytes ∧
        t.bus.map Cycle.frame = s.bus.map Cycle.frame ++ batchChannels.map frame) ∧
    ∃ (t : State) (raws : List (List Byte)), t.rxlen = 0 ∧
      ((raws.length = 8 ∧ statusAll target dev s = .next (t, .results (raws.map (decodeRead s.strict))) ∧
        t.bus.map Cycle.reply = s.bus.map Cycle.reply ++ raws.map Reply.bytes ∧
        t.bus.map Cycle.frame = s.bus.map Cycle.frame ++ batchChannels.map frame) ∨
       (raws.length < 8 ∧ statusAll target dev s = .next (t, .transportError) ∧
        t.bus.map Cycle.reply = s.bus.map Cycle.reply ++ raws.map Reply.bytes ++ [.transportError] ∧
        t.bus.map Cycle.frame = s.bus.map Cycle.frame ++ (batchChannels.take (raws.length + 1)).map frame))

/-- 46_commands.md R217, R219: RelayWriteAll writes channels 1 to 8 once each in ascending order and answers eight results in that order. The
first clause is for eight replies that a scenario fixes, the second for whatever the environment answers, drawn replies included: the batch
runs to its eighth result or ends at the first TransportError (that it ends there: log 17, DESIGN CHOICE; that the failed Exchange stands in
`bus`: log 21). -/
def Obligations.RelayBatchWritesEightInOrder : Prop :=
  ∀ (dev act : Byte) (s : State), s.Inv → s.rxlen = 0 → 1 ≤ dev.toNat → dev.toNat ≤ 247 → (act = 0x01 ∨ act = 0x02) →
    let frame (ch : Byte) : List Byte := [dev, 0x06, 0x00, ch, act, 0x00] ++ crc16Bytes [dev, 0x06, 0x00, ch, act, 0x00]
    (∀ (raws : List (List Byte)) (rest : List Reply), raws.length = 8 → (∀ raw ∈ raws, raw.length ≤ 256) →
      s.replies = raws.map Reply.bytes ++ rest →
      ∃ t, relayWriteAll dev act s = .next (t, .results (raws.map decodeWrite)) ∧
        t.replies = rest ∧ t.rxlen = 0 ∧
        t.bus.map Cycle.reply = s.bus.map Cycle.reply ++ raws.map Reply.bytes ∧
        t.bus.map Cycle.frame = s.bus.map Cycle.frame ++ batchChannels.map frame) ∧
    ∃ (t : State) (raws : List (List Byte)), t.rxlen = 0 ∧
      ((raws.length = 8 ∧ relayWriteAll dev act s = .next (t, .results (raws.map decodeWrite)) ∧
        t.bus.map Cycle.reply = s.bus.map Cycle.reply ++ raws.map Reply.bytes ∧
        t.bus.map Cycle.frame = s.bus.map Cycle.frame ++ batchChannels.map frame) ∨
       (raws.length < 8 ∧ relayWriteAll dev act s = .next (t, .transportError) ∧
        t.bus.map Cycle.reply = s.bus.map Cycle.reply ++ raws.map Reply.bytes ++ [.transportError] ∧
        t.bus.map Cycle.frame = s.bus.map Cycle.frame ++ (batchChannels.take (raws.length + 1)).map frame))

/-- 46_commands.md R220: a TransportError ends a batch, StatusAll and RelayWriteAll alike, at the cycle it happens in; no later cycle runs and
no sequence is produced. D0 does not say so of a batch: it is the spec's own reading (92_eei_decisions.md D24) and a choice in the model
(log 17, DESIGN CHOICE). That the failed Exchange stands in `bus`, and so counts here, is log 21. -/
def Obligations.TransportErrorEndsBatch : Prop :=
  ∀ (dev : Byte) (s : State) (raws : List (List Byte)) (rest : List Reply),
    s.Inv → s.rxlen = 0 → 1 ≤ dev.toNat → dev.toNat ≤ 247 → raws.length < 8 → (∀ raw ∈ raws, raw.length ≤ 256) →
    s.replies = raws.map Reply.bytes ++ .transportError :: rest →
    (∀ target : Target, ∃ t, statusAll target dev s = .next (t, .transportError) ∧ t.replies = rest ∧ t.rxlen = 0 ∧
      t.bus.length = s.bus.length + raws.length + 1) ∧
    ∀ act : Byte, (act = 0x01 ∨ act = 0x02) →
      ∃ t, relayWriteAll dev act s = .next (t, .transportError) ∧ t.replies = rest ∧ t.rxlen = 0 ∧
        t.bus.length = s.bus.length + raws.length + 1

end
end

