-- ==== Sys2Proof/Laws/Crc.lean ====
section
/-! SUPPORT. The laws of the CRC steps: both are linear over exclusive or, and a zero register stays zero (41_crc.md R121, R122). -/

namespace Sys2Proof.Machine

theorem crcBit_xor (a b : Half) : crcBit (a ^^^ b) = crcBit a ^^^ crcBit b := by
  have hself : ∀ x y p : Half, x ^^^ p ^^^ (y ^^^ p) = x ^^^ y := fun x y p => by
    rw [show x ^^^ p ^^^ (y ^^^ p) = (x ^^^ y) ^^^ (p ^^^ p) by ac_rfl]; simp
  unfold crcBit
  simp only [BitVec.getLsbD_xor, BitVec.ushiftRight_xor_distrib]
  cases a.getLsbD 0 <;> cases b.getLsbD 0 <;> simp [hself] <;> ac_rfl

theorem crcBits_xor (n : Nat) (a b : Half) : crcBits n (a ^^^ b) = crcBits n a ^^^ crcBits n b := by
  induction n generalizing a b with
  | zero => rfl
  | succ n ih => simp only [crcBits, crcBit_xor, ih]

@[simp] theorem crcBits_zero (n : Nat) : crcBits n 0 = 0 := by
  induction n with
  | zero => rfl
  | succ n ih => exact ih

/-- Absorbing the register's own low byte leaves eight plain shifts of the high byte. -/
theorem crcBits_of_high : ∀ h : Byte, crcBits 8 (h ++ 0#8) = h.setWidth 16 := by decide +kernel

/-- A register is its two bytes. -/
theorem half_of_bytes (c : Half) : (hiByte c ++ loByte c : Half) = c := by
  refine BitVec.eq_of_getLsbD_eq fun i hi => ?_
  simp only [hiByte, loByte, BitVec.getLsbD_append, BitVec.getLsbD_extractLsb']
  interval_cases i <;> simp

end Sys2Proof.Machine
end

