-- ==== Sys2Proof/Laws/Decode.lean ====
section
/-! SUPPORT. The field lemmas of the command word and of the frame word: a field of a packed word is the field packed, and a word is the
packing of its fields. -/

namespace Sys2Proof

section Command
variable (op : BitVec 4) (rsv kind : BitVec 2) (dev ch arg : Byte)

@[simp] theorem opField_pack : opField (packCommand op rsv kind dev ch arg) = op := by
  refine BitVec.eq_of_getLsbD_eq fun i hi => ?_
  simp only [opField, packCommand, BitVec.getLsbD_extractLsb', BitVec.getLsbD_append]
  interval_cases i <;> simp

@[simp] theorem rsvField_pack : rsvField (packCommand op rsv kind dev ch arg) = rsv := by
  refine BitVec.eq_of_getLsbD_eq fun i hi => ?_
  simp only [rsvField, packCommand, BitVec.getLsbD_extractLsb', BitVec.getLsbD_append]
  interval_cases i <;> simp

@[simp] theorem kindField_pack : kindField (packCommand op rsv kind dev ch arg) = kind := by
  refine BitVec.eq_of_getLsbD_eq fun i hi => ?_
  simp only [kindField, packCommand, BitVec.getLsbD_extractLsb', BitVec.getLsbD_append]
  interval_cases i <;> simp

@[simp] theorem devField_pack : devField (packCommand op rsv kind dev ch arg) = dev := by
  refine BitVec.eq_of_getLsbD_eq fun i hi => ?_
  simp only [devField, packCommand, BitVec.getLsbD_extractLsb', BitVec.getLsbD_append]
  interval_cases i <;> simp

@[simp] theorem chField_pack : chField (packCommand op rsv kind dev ch arg) = ch := by
  refine BitVec.eq_of_getLsbD_eq fun i hi => ?_
  simp only [chField, packCommand, BitVec.getLsbD_extractLsb', BitVec.getLsbD_append]
  interval_cases i <;> simp

@[simp] theorem argField_pack : argField (packCommand op rsv kind dev ch arg) = arg := by
  refine BitVec.eq_of_getLsbD_eq fun i hi => ?_
  simp only [argField, packCommand, BitVec.getLsbD_extractLsb', BitVec.getLsbD_append]
  interval_cases i <;> simp

end Command

/-- A command word is the packing of its six fields (30_encoding.md R81). -/
theorem packCommand_fields (w : CmdWord) :
    packCommand (opField w) (rsvField w) (kindField w) (devField w) (chField w) (argField w) = w := by
  refine BitVec.eq_of_getLsbD_eq fun i hi => ?_
  simp only [opField, rsvField, kindField, devField, chField, argField, packCommand, BitVec.getLsbD_extractLsb',
    BitVec.getLsbD_append]
  interval_cases i <;> simp

section Frame
variable (b0 b1 b2 b3 b4 b5 b6 b7 : Byte)

@[simp] theorem frameByte_pack0 : frameByte (packFrame b0 b1 b2 b3 b4 b5 b6 b7) 0 = b0 := by
  refine BitVec.eq_of_getLsbD_eq fun i hi => ?_
  simp only [frameByte, packFrame, BitVec.getLsbD_extractLsb', BitVec.getLsbD_append]
  interval_cases i <;> simp

@[simp] theorem frameByte_pack1 : frameByte (packFrame b0 b1 b2 b3 b4 b5 b6 b7) 1 = b1 := by
  refine BitVec.eq_of_getLsbD_eq fun i hi => ?_
  simp only [frameByte, packFrame, BitVec.getLsbD_extractLsb', BitVec.getLsbD_append]
  interval_cases i <;> simp

@[simp] theorem frameByte_pack2 : frameByte (packFrame b0 b1 b2 b3 b4 b5 b6 b7) 2 = b2 := by
  refine BitVec.eq_of_getLsbD_eq fun i hi => ?_
  simp only [frameByte, packFrame, BitVec.getLsbD_extractLsb', BitVec.getLsbD_append]
  interval_cases i <;> simp

@[simp] theorem frameByte_pack3 : frameByte (packFrame b0 b1 b2 b3 b4 b5 b6 b7) 3 = b3 := by
  refine BitVec.eq_of_getLsbD_eq fun i hi => ?_
  simp only [frameByte, packFrame, BitVec.getLsbD_extractLsb', BitVec.getLsbD_append]
  interval_cases i <;> simp

@[simp] theorem frameByte_pack4 : frameByte (packFrame b0 b1 b2 b3 b4 b5 b6 b7) 4 = b4 := by
  refine BitVec.eq_of_getLsbD_eq fun i hi => ?_
  simp only [frameByte, packFrame, BitVec.getLsbD_extractLsb', BitVec.getLsbD_append]
  interval_cases i <;> simp

@[simp] theorem frameByte_pack5 : frameByte (packFrame b0 b1 b2 b3 b4 b5 b6 b7) 5 = b5 := by
  refine BitVec.eq_of_getLsbD_eq fun i hi => ?_
  simp only [frameByte, packFrame, BitVec.getLsbD_extractLsb', BitVec.getLsbD_append]
  interval_cases i <;> simp

@[simp] theorem frameByte_pack6 : frameByte (packFrame b0 b1 b2 b3 b4 b5 b6 b7) 6 = b6 := by
  refine BitVec.eq_of_getLsbD_eq fun i hi => ?_
  simp only [frameByte, packFrame, BitVec.getLsbD_extractLsb', BitVec.getLsbD_append]
  interval_cases i <;> simp

@[simp] theorem frameByte_pack7 : frameByte (packFrame b0 b1 b2 b3 b4 b5 b6 b7) 7 = b7 := by
  refine BitVec.eq_of_getLsbD_eq fun i hi => ?_
  simp only [frameByte, packFrame, BitVec.getLsbD_extractLsb', BitVec.getLsbD_append]
  interval_cases i <;> simp

end Frame

/-- A frame word is the packing of its eight bytes (30_encoding.md R90). -/
theorem packFrame_bytes (f : FrameWord) :
    packFrame (frameByte f 0) (frameByte f 1) (frameByte f 2) (frameByte f 3) (frameByte f 4) (frameByte f 5)
      (frameByte f 6) (frameByte f 7) = f := by
  refine BitVec.eq_of_getLsbD_eq fun i hi => ?_
  simp only [frameByte, packFrame, BitVec.getLsbD_extractLsb', BitVec.getLsbD_append]
  interval_cases i <;> simp

/-! ### Parts of a byte -/

@[simp] theorem nibble_hi (a b : BitVec 4) : (a ++ b : Byte).extractLsb' 4 4 = a := by
  refine BitVec.eq_of_getLsbD_eq fun i hi => ?_
  simp only [BitVec.getLsbD_extractLsb', BitVec.getLsbD_append]
  interval_cases i <;> simp

@[simp] theorem nibble_lo (a b : BitVec 4) : (a ++ b : Byte).extractLsb' 0 4 = b := by
  refine BitVec.eq_of_getLsbD_eq fun i hi => ?_
  simp only [BitVec.getLsbD_extractLsb', BitVec.getLsbD_append]
  interval_cases i <;> simp

@[simp] theorem index_hi (i : BitVec 3) : (0#5 ++ i : Byte).extractLsb' 3 5 = 0 := by revert i; decide

@[simp] theorem index_lo (i : BitVec 3) : (0#5 ++ i : Byte).extractLsb' 0 3 = i := by revert i; decide

@[simp] theorem modeBit_hi (s : BitVec 1) : (0#7 ++ s : Byte).extractLsb' 1 7 = 0 := by revert s; decide

@[simp] theorem modeBit_lo (s : BitVec 1) : (0#7 ++ s : Byte).extractLsb' 0 1 = s := by revert s; decide

/-- A byte is its two nibbles. -/
theorem byte_nibbles (b : Byte) : (b.extractLsb' 4 4 ++ b.extractLsb' 0 4 : Byte) = b := by
  refine BitVec.eq_of_getLsbD_eq fun i hi => ?_
  simp only [BitVec.getLsbD_extractLsb', BitVec.getLsbD_append]
  interval_cases i <;> simp

/-- A command word that decodes says which word it is: its fields are the ones the decoder read. -/
theorem decodeCommand_pack (op : BitVec 4) (rsv kind : BitVec 2) (dev ch arg : Byte) :
    decodeCommand (packCommand op rsv kind dev ch arg) = decodeFields op rsv kind dev ch arg := by
  simp [decodeCommand]

end Sys2Proof
end

