-- ==== Sys2Proof/Laws/Memory.lean ====
section
/-! SUPPORT. The laws of the byte buffers: a read after a write, and that every memory operation keeps the canonical form. -/

namespace Sys2Proof.Machine

@[simp] theorem Memory.read_nil (i : Nat) : Memory.read [] i = 0 := rfl

theorem Memory.read_cons (a : Nat) (v : Byte) (m : Memory) (i : Nat) :
    Memory.read ((a, v) :: m) i = if a = i then v else Memory.read m i := rfl

/-- A buffer in canonical form from `lo` up reads as unlisted below `lo`. -/
theorem Memory.read_below {size lo : Nat} {m : Memory} (h : Memory.wfFrom size lo m = true) {i : Nat} (hi : i < lo) :
    m.read i = 0 := by
  induction m generalizing lo with
  | nil => rfl
  | cons c m ih =>
    obtain ⟨a, v⟩ := c
    simp only [Memory.wfFrom, Bool.and_eq_true, decide_eq_true_eq] at h
    rw [Memory.read_cons, if_neg (by omega)]
    exact ih h.2 (by omega)

theorem Memory.wfFrom_mono {size lo lo' : Nat} {m : Memory} (h : Memory.wfFrom size lo m = true) (hl : lo' ≤ lo) :
    Memory.wfFrom size lo' m = true := by
  cases m with
  | nil => rfl
  | cons c m =>
    obtain ⟨a, v⟩ := c
    simp only [Memory.wfFrom, Bool.and_eq_true, decide_eq_true_eq] at h ⊢
    exact ⟨⟨⟨by omega, h.1.1.2⟩, h.1.2⟩, h.2⟩

theorem Memory.read_entry (i : Nat) (v : Byte) (m : Memory) (hm : m.read i = 0) (j : Nat) :
    (Memory.entry i v m).read j = if i = j then v else m.read j := by
  unfold Memory.entry
  split
  · next h =>
    subst h
    split
    · next h => subst h; exact hm
    · rfl
  · exact Memory.read_cons i v m j

/-- A byte written in a canonical buffer is read back at its offset, and every other offset reads as before. -/
theorem Memory.read_write {size lo : Nat} {m : Memory} (h : Memory.wfFrom size lo m = true) (i : Nat) (v : Byte) (j : Nat) :
    (m.write i v).read j = if i = j then v else m.read j := by
  induction m generalizing lo with
  | nil => exact Memory.read_entry i v [] rfl j
  | cons c m ih =>
    obtain ⟨a, u⟩ := c
    simp only [Memory.wfFrom, Bool.and_eq_true, decide_eq_true_eq] at h
    unfold Memory.write
    split
    · next hia =>
      refine Memory.read_entry i v _ ?_ j
      rw [Memory.read_cons, if_neg (by omega)]
      exact Memory.read_below h.2 (by omega)
    · split
      · next hia =>
        subst hia
        rw [Memory.read_entry i v _ (Memory.read_below h.2 (by omega)) j, Memory.read_cons]
        split <;> rfl
      · rw [Memory.read_cons, Memory.read_cons, ih h.2]
        split
        · next haj => rw [if_neg (by omega)]
        · rfl

theorem Memory.wfFrom_entry {size lo i : Nat} {v : Byte} {m : Memory} (hlo : lo ≤ i) (hi : i < size)
    (hm : Memory.wfFrom size (i + 1) m = true) : Memory.wfFrom size lo (Memory.entry i v m) = true := by
  unfold Memory.entry
  split
  · exact Memory.wfFrom_mono hm (by omega)
  · next hv => simp [Memory.wfFrom, hlo, hi, hm, hv]

theorem Memory.wfFrom_write {size lo : Nat} {m : Memory} (h : Memory.wfFrom size lo m = true) {i : Nat} (hlo : lo ≤ i)
    (hi : i < size) (v : Byte) : Memory.wfFrom size lo (m.write i v) = true := by
  induction m generalizing lo with
  | nil => exact Memory.wfFrom_entry hlo hi rfl
  | cons c m ih =>
    obtain ⟨a, u⟩ := c
    have h' := h
    simp only [Memory.wfFrom, Bool.and_eq_true, decide_eq_true_eq] at h
    unfold Memory.write
    split
    · next hia =>
      refine Memory.wfFrom_entry hlo hi ?_
      simp only [Memory.wfFrom, Bool.and_eq_true, decide_eq_true_eq]
      exact ⟨⟨⟨by omega, h.1.1.2⟩, h.1.2⟩, h.2⟩
    · split
      · next hia => subst hia; exact Memory.wfFrom_entry hlo hi h.2
      · simp only [Memory.wfFrom, Bool.and_eq_true, decide_eq_true_eq]
        exact ⟨⟨⟨h.1.1.1, h.1.1.2⟩, h.1.2⟩, ih h.2 (by omega)⟩

/-- A write inside the buffer keeps the canonical form. -/
theorem Memory.wf_write {size : Nat} {m : Memory} (h : m.wf size = true) {i : Nat} (hi : i < size) (v : Byte) :
    (m.write i v).wf size = true :=
  Memory.wfFrom_write h (Nat.zero_le i) hi v

/-- Writes inside the buffer keep the canonical form. -/
theorem Memory.wf_writeFrom {size : Nat} {m : Memory} (h : m.wf size = true) (bs : List Byte) (i : Nat)
    (hi : i + bs.length ≤ size) : (m.writeFrom i bs).wf size = true := by
  induction bs generalizing m i with
  | nil => exact h
  | cons b bs ih =>
    simp only [List.length_cons] at hi
    exact ih (Memory.wf_write h (by omega) b) (i + 1) (by omega)

/-- What each offset reads after bytes are written from `i` up. -/
theorem Memory.read_writeFrom {size : Nat} {m : Memory} (h : m.wf size = true) (bs : List Byte) (i : Nat)
    (hi : i + bs.length ≤ size) (j : Nat) :
    (m.writeFrom i bs).read j = if i ≤ j ∧ j < i + bs.length then bs.getD (j - i) 0 else m.read j := by
  induction bs generalizing m i with
  | nil => rw [if_neg (by simp only [List.length_nil]; omega)]; rfl
  | cons b bs ih =>
    simp only [List.length_cons] at hi ⊢
    unfold Memory.writeFrom
    rw [ih (Memory.wf_write h (by omega) b) (i + 1) (by omega), Memory.read_write h]
    by_cases hij : i = j
    · subst hij; simp
    · by_cases hlt : i + 1 ≤ j ∧ j < i + 1 + bs.length
      · rw [if_pos hlt, if_pos (by omega), show j - i = (j - (i + 1)) + 1 by omega]
        rfl
      · rw [if_neg hlt, if_neg hij, if_neg (by omega)]

@[simp] theorem Memory.length_bytes (m : Memory) (n : Nat) : (m.bytes n).length = n := by simp [Memory.bytes]

/-- Byte `i` of the bytes of a buffer is what offset `i` reads. -/
theorem Memory.getD_bytes (m : Memory) {n i : Nat} (h : i < n) : (m.bytes n).getD i 0 = m.read i := by
  simp [Memory.bytes, List.getD_eq_getElem?_getD, List.getElem?_range h]

/-- A frame written to TXF stands there byte for byte. -/
theorem Memory.bytes_writeFrom {m : Memory} {bs : List Byte} {n : Nat} (h : m.wf n = true) (hb : bs.length = n) :
    (m.writeFrom 0 bs).bytes n = bs := by
  refine List.ext_getElem (by simp [hb]) fun i h₁ h₂ => ?_
  have hr := Memory.read_writeFrom h bs 0 (by omega) i
  rw [if_pos (by omega), Nat.sub_zero, List.getD_eq_getElem?_getD, List.getElem?_eq_getElem h₂] at hr
  simpa [Memory.bytes] using hr

/-- One byte pushed behind the `n` bytes of a buffer. -/
theorem Memory.bytes_write_end {m : Memory} {size n : Nat} (h : m.wf size = true) (b : Byte) :
    (m.write n b).bytes (n + 1) = m.bytes n ++ [b] := by
  simp only [Memory.bytes, List.range_succ, List.map_append, List.map_cons, List.map_nil]
  congr 1
  · refine List.map_congr_left fun i hi => ?_
    rw [Memory.read_write h, if_neg (by have := List.mem_range.1 hi; omega)]
  · rw [Memory.read_write h, if_pos rfl]

end Sys2Proof.Machine
end

