-- ==== Sys2Proof/Laws/State.lean ====
section
/-! SUPPORT. One lemma per field per update of the state, each true by rfl, so that no later proof unfolds a record update. -/

namespace Sys2Proof.Machine

variable (s : State)

/-! ### `setTxv` -/

@[simp] theorem State.setTxv_crc (v : Bool) : (s.setTxv v).crc = s.crc := rfl
@[simp] theorem State.setTxv_txf (v : Bool) : (s.setTxv v).txf = s.txf := rfl
@[simp] theorem State.setTxv_txv (v : Bool) : (s.setTxv v).txv = v := rfl
@[simp] theorem State.setTxv_rxb (v : Bool) : (s.setTxv v).rxb = s.rxb := rfl
@[simp] theorem State.setTxv_rxlen (v : Bool) : (s.setTxv v).rxlen = s.rxlen := rfl
@[simp] theorem State.setTxv_strict (v : Bool) : (s.setTxv v).strict = s.strict := rfl
@[simp] theorem State.setTxv_cfg (v : Bool) : (s.setTxv v).cfg = s.cfg := rfl
@[simp] theorem State.setTxv_inputs (v : Bool) : (s.setTxv v).inputs = s.inputs := rfl
@[simp] theorem State.setTxv_responses (v : Bool) : (s.setTxv v).responses = s.responses := rfl
@[simp] theorem State.setTxv_replies (v : Bool) : (s.setTxv v).replies = s.replies := rfl
@[simp] theorem State.setTxv_draws (v : Bool) : (s.setTxv v).draws = s.draws := rfl
@[simp] theorem State.setTxv_bus (v : Bool) : (s.setTxv v).bus = s.bus := rfl

/-! ### `setStrict` -/

@[simp] theorem State.setStrict_crc (v : Bool) : (s.setStrict v).crc = s.crc := rfl
@[simp] theorem State.setStrict_txf (v : Bool) : (s.setStrict v).txf = s.txf := rfl
@[simp] theorem State.setStrict_txv (v : Bool) : (s.setStrict v).txv = s.txv := rfl
@[simp] theorem State.setStrict_rxb (v : Bool) : (s.setStrict v).rxb = s.rxb := rfl
@[simp] theorem State.setStrict_rxlen (v : Bool) : (s.setStrict v).rxlen = s.rxlen := rfl
@[simp] theorem State.setStrict_strict (v : Bool) : (s.setStrict v).strict = v := rfl
@[simp] theorem State.setStrict_cfg (v : Bool) : (s.setStrict v).cfg = s.cfg := rfl
@[simp] theorem State.setStrict_inputs (v : Bool) : (s.setStrict v).inputs = s.inputs := rfl
@[simp] theorem State.setStrict_responses (v : Bool) : (s.setStrict v).responses = s.responses := rfl
@[simp] theorem State.setStrict_replies (v : Bool) : (s.setStrict v).replies = s.replies := rfl
@[simp] theorem State.setStrict_draws (v : Bool) : (s.setStrict v).draws = s.draws := rfl
@[simp] theorem State.setStrict_bus (v : Bool) : (s.setStrict v).bus = s.bus := rfl

/-! ### `deliver` -/

@[simp] theorem State.deliver_crc (r : RspWord) : (s.deliver r).crc = s.crc := rfl
@[simp] theorem State.deliver_txf (r : RspWord) : (s.deliver r).txf = s.txf := rfl
@[simp] theorem State.deliver_txv (r : RspWord) : (s.deliver r).txv = s.txv := rfl
@[simp] theorem State.deliver_rxb (r : RspWord) : (s.deliver r).rxb = s.rxb := rfl
@[simp] theorem State.deliver_rxlen (r : RspWord) : (s.deliver r).rxlen = s.rxlen := rfl
@[simp] theorem State.deliver_strict (r : RspWord) : (s.deliver r).strict = s.strict := rfl
@[simp] theorem State.deliver_cfg (r : RspWord) : (s.deliver r).cfg = s.cfg := rfl
@[simp] theorem State.deliver_inputs (r : RspWord) : (s.deliver r).inputs = s.inputs := rfl
@[simp] theorem State.deliver_responses (r : RspWord) : (s.deliver r).responses = s.responses ++ [r] := rfl
@[simp] theorem State.deliver_replies (r : RspWord) : (s.deliver r).replies = s.replies := rfl
@[simp] theorem State.deliver_draws (r : RspWord) : (s.deliver r).draws = s.draws := rfl
@[simp] theorem State.deliver_bus (r : RspWord) : (s.deliver r).bus = s.bus := rfl

/-! ### `blockReset` -/

@[simp] theorem State.blockReset_crc : (s.blockReset).crc = 0xFFFF := rfl
@[simp] theorem State.blockReset_txf : (s.blockReset).txf = [] := rfl
@[simp] theorem State.blockReset_txv : (s.blockReset).txv = false := rfl
@[simp] theorem State.blockReset_rxb : (s.blockReset).rxb = [] := rfl
@[simp] theorem State.blockReset_rxlen : (s.blockReset).rxlen = 0 := rfl
@[simp] theorem State.blockReset_strict : (s.blockReset).strict = false := rfl
@[simp] theorem State.blockReset_cfg : (s.blockReset).cfg = s.cfg := rfl
@[simp] theorem State.blockReset_inputs : (s.blockReset).inputs = s.inputs := rfl
@[simp] theorem State.blockReset_responses : (s.blockReset).responses = s.responses := rfl
@[simp] theorem State.blockReset_replies : (s.blockReset).replies = s.replies := rfl
@[simp] theorem State.blockReset_draws : (s.blockReset).draws = s.draws := rfl
@[simp] theorem State.blockReset_bus : (s.blockReset).bus = s.bus := rfl

/-! ### `taken` -/

@[simp] theorem State.taken_crc : (s.taken).crc = s.crc := rfl
@[simp] theorem State.taken_txf : (s.taken).txf = s.txf := rfl
@[simp] theorem State.taken_txv : (s.taken).txv = s.txv := rfl
@[simp] theorem State.taken_rxb : (s.taken).rxb = s.rxb := rfl
@[simp] theorem State.taken_rxlen : (s.taken).rxlen = s.rxlen := rfl
@[simp] theorem State.taken_strict : (s.taken).strict = s.strict := rfl
@[simp] theorem State.taken_cfg : (s.taken).cfg = s.cfg := rfl
@[simp] theorem State.taken_inputs : (s.taken).inputs = s.inputs.tail := rfl
@[simp] theorem State.taken_responses : (s.taken).responses = s.responses := rfl
@[simp] theorem State.taken_replies : (s.taken).replies = s.replies := rfl
@[simp] theorem State.taken_draws : (s.taken).draws = s.draws := rfl
@[simp] theorem State.taken_bus : (s.taken).bus = s.bus := rfl

/-! ### `presenting` -/

@[simp] theorem State.presenting_crc (w : Wire) : (s.presenting w).crc = s.crc := rfl
@[simp] theorem State.presenting_txf (w : Wire) : (s.presenting w).txf = s.txf := rfl
@[simp] theorem State.presenting_txv (w : Wire) : (s.presenting w).txv = s.txv := rfl
@[simp] theorem State.presenting_rxb (w : Wire) : (s.presenting w).rxb = s.rxb := rfl
@[simp] theorem State.presenting_rxlen (w : Wire) : (s.presenting w).rxlen = s.rxlen := rfl
@[simp] theorem State.presenting_strict (w : Wire) : (s.presenting w).strict = s.strict := rfl
@[simp] theorem State.presenting_cfg (w : Wire) : (s.presenting w).cfg = s.cfg := rfl
@[simp] theorem State.presenting_inputs (w : Wire) : (s.presenting w).inputs = .present w :: s.inputs := rfl
@[simp] theorem State.presenting_responses (w : Wire) : (s.presenting w).responses = s.responses := rfl
@[simp] theorem State.presenting_replies (w : Wire) : (s.presenting w).replies = s.replies := rfl
@[simp] theorem State.presenting_draws (w : Wire) : (s.presenting w).draws = s.draws := rfl
@[simp] theorem State.presenting_bus (w : Wire) : (s.presenting w).bus = s.bus := rfl

/-! ### `respond` -/

@[simp] theorem respond_crc (p : Payload) : (respond p s).crc = s.crc := rfl
@[simp] theorem respond_txf (p : Payload) : (respond p s).txf = s.txf := rfl
@[simp] theorem respond_txv (p : Payload) : (respond p s).txv = s.txv := rfl
@[simp] theorem respond_rxb (p : Payload) : (respond p s).rxb = s.rxb := rfl
@[simp] theorem respond_rxlen (p : Payload) : (respond p s).rxlen = s.rxlen := rfl
@[simp] theorem respond_strict (p : Payload) : (respond p s).strict = s.strict := rfl
@[simp] theorem respond_cfg (p : Payload) : (respond p s).cfg = s.cfg := rfl
@[simp] theorem respond_inputs (p : Payload) : (respond p s).inputs = s.inputs := rfl
@[simp] theorem respond_responses (p : Payload) : (respond p s).responses = s.responses ++ [packResponse statusOk p] := rfl
@[simp] theorem respond_replies (p : Payload) : (respond p s).replies = s.replies := rfl
@[simp] theorem respond_draws (p : Payload) : (respond p s).draws = s.draws := rfl
@[simp] theorem respond_bus (p : Payload) : (respond p s).bus = s.bus := rfl

/-! ### `raise` -/

@[simp] theorem raise_crc (e : OpError) : (raise e s).crc = s.crc := rfl
@[simp] theorem raise_txf (e : OpError) : (raise e s).txf = s.txf := rfl
@[simp] theorem raise_txv (e : OpError) : (raise e s).txv = s.txv := rfl
@[simp] theorem raise_rxb (e : OpError) : (raise e s).rxb = s.rxb := rfl
@[simp] theorem raise_rxlen (e : OpError) : (raise e s).rxlen = s.rxlen := rfl
@[simp] theorem raise_strict (e : OpError) : (raise e s).strict = s.strict := rfl
@[simp] theorem raise_cfg (e : OpError) : (raise e s).cfg = s.cfg := rfl
@[simp] theorem raise_inputs (e : OpError) : (raise e s).inputs = s.inputs := rfl
@[simp] theorem raise_responses (e : OpError) : (raise e s).responses = s.responses ++ [packResponse e.code 0] := rfl
@[simp] theorem raise_replies (e : OpError) : (raise e s).replies = s.replies := rfl
@[simp] theorem raise_draws (e : OpError) : (raise e s).draws = s.draws := rfl
@[simp] theorem raise_bus (e : OpError) : (raise e s).bus = s.bus := rfl

/-! ### `exchange` -/

@[simp] theorem exchange_crc (f : List Byte) : (exchange f s).crc = s.crc := rfl
@[simp] theorem exchange_txf (f : List Byte) : (exchange f s).txf = s.txf := rfl
@[simp] theorem exchange_txv (f : List Byte) : (exchange f s).txv = s.txv := rfl
@[simp] theorem exchange_rxb (f : List Byte) : (exchange f s).rxb = s.rxb := rfl
@[simp] theorem exchange_rxlen (f : List Byte) : (exchange f s).rxlen = s.rxlen := rfl
@[simp] theorem exchange_strict (f : List Byte) : (exchange f s).strict = s.strict := rfl
@[simp] theorem exchange_cfg (f : List Byte) : (exchange f s).cfg = s.cfg := rfl
@[simp] theorem exchange_inputs (f : List Byte) : (exchange f s).inputs = s.inputs := rfl
@[simp] theorem exchange_responses (f : List Byte) : (exchange f s).responses = s.responses := rfl
@[simp] theorem exchange_replies (f : List Byte) : (exchange f s).replies = s.replies.tail := rfl
@[simp] theorem exchange_draws (f : List Byte) : (exchange f s).draws = s.draws + 1 := rfl
@[simp] theorem exchange_bus (f : List Byte) : (exchange f s).bus = s.bus ++ [⟨f, s.nextReply⟩] := rfl

/-! ### `finishDecode` -/

@[simp] theorem finishDecode_crc (r : DecResult) : (finishDecode r s).crc = s.crc := rfl
@[simp] theorem finishDecode_txf (r : DecResult) : (finishDecode r s).txf = s.txf := rfl
@[simp] theorem finishDecode_txv (r : DecResult) : (finishDecode r s).txv = s.txv := rfl
@[simp] theorem finishDecode_rxb (r : DecResult) : (finishDecode r s).rxb = s.rxb := rfl
@[simp] theorem finishDecode_rxlen (r : DecResult) : (finishDecode r s).rxlen = 0 := rfl
@[simp] theorem finishDecode_strict (r : DecResult) : (finishDecode r s).strict = s.strict := rfl
@[simp] theorem finishDecode_cfg (r : DecResult) : (finishDecode r s).cfg = s.cfg := rfl
@[simp] theorem finishDecode_inputs (r : DecResult) : (finishDecode r s).inputs = s.inputs := rfl
@[simp] theorem finishDecode_responses (r : DecResult) : (finishDecode r s).responses = s.responses ++ [packResponse statusOk (resultPayload r)] := rfl
@[simp] theorem finishDecode_replies (r : DecResult) : (finishDecode r s).replies = s.replies := rfl
@[simp] theorem finishDecode_draws (r : DecResult) : (finishDecode r s).draws = s.draws := rfl
@[simp] theorem finishDecode_bus (r : DecResult) : (finishDecode r s).bus = s.bus := rfl

end Sys2Proof.Machine
end

