-- ==== Sys2Proof/Laws/Response.lean ====
section
/-! SUPPORT. The laws of the response word (30_encoding.md R86 to R88) and of what the host reads in it. -/

namespace Sys2Proof.Machine

@[simp] theorem statusField_pack (st : BitVec 4) (p : Payload) : statusField (packResponse st p) = st := by
  refine BitVec.eq_of_getLsbD_eq fun i hi => ?_
  simp only [statusField, packResponse, BitVec.getLsbD_extractLsb', BitVec.getLsbD_append]
  interval_cases i <;> simp

@[simp] theorem payloadField_pack (st : BitVec 4) (p : Payload) : payloadField (packResponse st p) = p := by
  refine BitVec.eq_of_getLsbD_eq fun i hi => ?_
  simp only [payloadField, packResponse, BitVec.getLsbD_extractLsb', BitVec.getLsbD_append]
  interval_cases i <;> simp

@[simp] theorem zeroField_pack (st : BitVec 4) (p : Payload) : (packResponse st p).extractLsb' 48 12 = 0 := by
  refine BitVec.eq_of_getLsbD_eq fun i hi => ?_
  simp only [packResponse, BitVec.getLsbD_extractLsb', BitVec.getLsbD_append]
  interval_cases i <;> simp

/-- A response with STATUS 0 is its payload, zero-extended. -/
theorem packResponse_ok (p : Payload) : packResponse statusOk p = p.setWidth 64 := by
  refine BitVec.eq_of_getLsbD_eq fun i hi => ?_
  simp only [packResponse, statusOk, BitVec.getLsbD_append, BitVec.getLsbD_setWidth]
  interval_cases i <;> simp

@[simp] theorem packResponse_ok_zero : packResponse statusOk 0 = 0#64 := rfl

/-- The same, with the payload in the form simp writes literals. -/
@[simp] theorem packResponse_ok_zero_literal : packResponse statusOk 0#48 = 0#64 := rfl

@[simp] theorem raise_invalidChannel (s : State) :
    raise .invalidChannel s = s.deliver 0x1000000000000000 := rfl

@[simp] theorem raise_invalidAction (s : State) :
    raise .invalidAction s = s.deliver 0x2000000000000000 := rfl

@[simp] theorem raise_illegalCommand (s : State) :
    raise .illegalCommand s = s.deliver 0x3000000000000000 := rfl

@[simp] theorem errorOf_pack_ok (p : Payload) : errorOf (packResponse statusOk p) = none := by
  simp [errorOf, statusOk]

@[simp] theorem errorOf_raised (e : OpError) : errorOf (packResponse e.code 0) = some e := by
  cases e <;> rfl

/-- The same, with the payload in the form simp writes literals. -/
@[simp] theorem errorOf_raised_literal (e : OpError) : errorOf (packResponse e.code 0#48) = some e := errorOf_raised e

/-! ### The last response -/

@[simp] theorem lastResponse_deliver (s : State) (r : RspWord) : (s.deliver r).lastResponse = r := by
  simp [State.lastResponse, State.deliver]

@[simp] theorem lastResponse_respond (p : Payload) (s : State) : (respond p s).lastResponse = packResponse statusOk p :=
  lastResponse_deliver s _

@[simp] theorem lastResponse_raise (e : OpError) (s : State) : (raise e s).lastResponse = packResponse e.code 0 :=
  lastResponse_deliver s _

@[simp] theorem andThen_next {α β : Type} (a : α) (f : α → Host.Outcome β Fault Refusal) : andThen (.next a) f = f a := rfl

/-- Issuing an operation that answers a next state. -/
theorem issue_of_exec {i : Instr} {s t : State} (h : exec i s = .next t) : issue i s = .next (t, t.lastResponse) := by
  simp [issue, h]

/-! ### Decode results in a payload (30_encoding.md R99) -/

theorem resultOf_payload {r : DecResult}
    (h : r ∈ ([⟨.on, .none⟩, ⟨.off, .none⟩, ⟨.unknown, .timeout⟩, ⟨.unknown, .malformed⟩, ⟨.acknowledged, .none⟩] :
      List DecResult)) : resultOf (resultPayload r) = some r := by
  simp only [List.mem_cons, List.not_mem_nil, or_false] at h
  rcases h with rfl | rfl | rfl | rfl | rfl <;> rfl

end Sys2Proof.Machine
end

