-- ==== Sys2Proof/Laws/Exec.lean ====
section
/-! SUPPORT. What each shared operation can do, said once: the cases a next state falls in. -/

namespace Sys2Proof.Machine

/-- A build that answers next had its device address in range, and is the BLD transition (43_encoder.md R164, R169). -/
theorem buildChecked_next {dev : Byte} {m : Except OpError Mapping} {s t : State} (h : buildChecked dev m s = .next t) :
    deviceInRange dev = true ∧ t = buildOp dev m s := by
  unfold buildChecked at h
  split at h
  · next hd => cases h; exact ⟨hd, rfl⟩
  · cases h

theorem buildChecked_of_inRange {dev : Byte} (h : deviceInRange dev = true) (m : Except OpError Mapping) (s : State) :
    buildChecked dev m s = .next (buildOp dev m s) := if_pos h

/-- An operation on RXB that answers next found RXLEN at most 256 (log 10). -/
theorem rxChecked_next {s s' t : State} (h : rxChecked s s' = .next t) : s.rxlen.toNat ≤ rxbSize ∧ t = s' := by
  unfold rxChecked at h
  split at h
  · next hl => cases h; exact ⟨hl, rfl⟩
  · cases h

theorem rxChecked_of_le {s : State} (h : s.rxlen.toNat ≤ rxbSize) (s' : State) : rxChecked s s' = .next s' := if_pos h

/-- The two ways a MAP operation ends: with its mapping, or with its error; no state changes but the response (42_addrmap.md R145). -/
theorem mapOp_cases (m : Except OpError Mapping) (s : State) :
    (∃ r, m = .ok r ∧ mapOp m s = s.deliver (packResponse statusOk (mappingPayload r))) ∨
    ∃ e, m = .error e ∧ mapOp m s = s.deliver (packResponse e.code 0) := by
  cases m with
  | error e => exact .inr ⟨e, rfl, rfl⟩
  | ok r => exact .inl ⟨r, rfl, rfl⟩

/-- What each mapper can answer (42_addrmap.md R141 to R143). -/
theorem mapRelay_ok {ch act : Byte} {m : Mapping} (h : mapRelay ch act = .ok m) :
    channelValid ch = true ∧ ∃ data, actionData act = some data ∧ m = { fc := 0x06, addr := zext16 ch, data := data } := by
  unfold mapRelay at h
  split at h
  · next hc =>
    split at h
    · next data hd => cases h; exact ⟨hc, data, hd, rfl⟩
    · cases h
  · cases h

theorem mapInput_ok {ch : Byte} {m : Mapping} (h : mapInput ch = .ok m) :
    channelValid ch = true ∧ m = { fc := 0x03, addr := 0x0080 + zext16 ch, data := 0x0001 } := by
  unfold mapInput at h
  split at h
  · next hc => cases h; exact ⟨hc, rfl⟩
  · cases h

theorem mapOstat_ok {o : BitVec 1} {ch : Byte} {m : Mapping} (h : mapOstat o ch = .ok m) :
    channelValid ch = true ∧ m = { fc := 0x03, addr := zext16 ch + o.setWidth 16, data := 0x0001 } := by
  unfold mapOstat at h
  split at h
  · next hc => cases h; exact ⟨hc, rfl⟩
  · cases h

/-- The two ways a build ends: with the error of its mapping and TXV cleared, or with the frame in TXF (43_encoder.md R164). -/
theorem buildOp_cases (dev : Byte) (m : Except OpError Mapping) (s : State) :
    (∃ e, m = .error e ∧ buildOp dev m s = raise e (s.setTxv false)) ∨
    ∃ r, m = .ok r ∧ buildOp dev m s = respond 0
      { s with txf := s.txf.writeFrom 0 (buildFrame dev r), crc := frameCrc (buildFrame dev r), txv := true } := by
  cases m with
  | error e => exact .inl ⟨e, rfl, rfl⟩
  | ok r => exact .inr ⟨r, rfl, rfl⟩

/-- The two ways RX.PUSH ends (44_decoder.md R183). -/
theorem pushOp_cases (b : Byte) (s : State) :
    (s.rxlen = 256 ∧ pushOp b s = raise .illegalCommand s) ∨
    (s.rxlen ≠ 256 ∧ pushOp b s =
      respond 0 { s with rxb := s.rxb.write s.rxlen.toNat b, rxlen := s.rxlen + 1 }) := by
  unfold pushOp
  split
  · next h => exact .inl ⟨h, rfl⟩
  · next h => exact .inr ⟨h, rfl⟩

@[simp] theorem buildFrame_length (dev : Byte) (m : Mapping) : (buildFrame dev m).length = 8 := rfl

/-- The frame a build writes stands in TXF, and `CRC` is the CRC of its body (43_encoder.md R162, R164). -/
theorem buildOp_ok_txBytes {s : State} (h : s.txf.wf txfSize = true) (dev : Byte) (m : Mapping) :
    (buildOp dev (.ok m) s).txBytes = buildFrame dev m :=
  Memory.bytes_writeFrom h rfl

theorem frameCrc_buildFrame (dev : Byte) (m : Mapping) : frameCrc (buildFrame dev m) = crc16 (buildBody dev m) := by
  refine BitVec.eq_of_getLsbD_eq fun i hi => ?_
  simp only [frameCrc, buildFrame, buildBody, crc16Bytes, hiByte, loByte, List.cons_append, List.nil_append, List.getD_cons_succ,
    List.getD_cons_zero, BitVec.getLsbD_append, BitVec.getLsbD_extractLsb']
  interval_cases i <;> simp

/-- The reply to an Exchange is TransportError or at most 256 bytes (46_commands.md R212). -/
theorem freeReply_length {k : Nat} {raw : List Byte} (h : freeReply k = .bytes raw) : raw.length ≤ rxbSize := by
  unfold freeReply at h
  split at h
  · cases h
  · cases h
    simpa [rxbSize] using Nat.lt_succ_iff.1 (Config.freeReplyLength k).isLt

@[simp] theorem rxBytes_length (s : State) : s.rxBytes.length = s.rxlen.toNat := by simp [State.rxBytes]

@[simp] theorem txBytes_length (s : State) : s.txBytes.length = 8 := by simp [State.txBytes, txfSize]

end Sys2Proof.Machine
end

