-- ==== Sys2Proof/Laws/PerInstr.lean ====
section
/-! SUPPORT. Per-instruction laws. Family EncodingPattern: the word the encoder writes is the match of the instruction's row of
spec/opcode_table.json under the row's mask. -/

namespace Sys2Proof.Laws.EncodingPattern

/-- A wire word under a mask, against a match. -/
def fits (w : Wire) (mask pattern : Nat) : Prop :=
  match w with
  | .cw32 w => w &&& BitVec.ofNat 32 mask = BitVec.ofNat 32 pattern
  | .rqf64 f => f &&& BitVec.ofNat 64 mask = BitVec.ofNat 64 pattern

/-- The row's mask and match, as the table prints them. -/
def row : Instr → Nat × Nat
  | .crcInit => (0xFFFFFFFF, 0x10000000)
  | .crcUpd _ => (0xFFFFFF00, 0x20000000)
  | .crcGet => (0xFFFFFFFF, 0x30000000)
  | .mapRly _ _ => (0xFFFF0000, 0x41000000)
  | .mapDin _ => (0xFFFF00FF, 0x42000000)
  | .mapOst _ => (0xFFFF00FF, 0x43000000)
  | .bldRly _ _ _ => (0xFF000000, 0x51000000)
  | .bldDin _ _ => (0xFF0000FF, 0x52000000)
  | .bldOst _ _ => (0xFF0000FF, 0x53000000)
  | .txRd _ => (0xFFFFFFF8, 0x60000000)
  | .rxClr => (0xFFFFFFFF, 0x70000000)
  | .rxPush _ => (0xFFFFFF00, 0x80000000)
  | .decRly => (0xFFFFFFFF, 0x91000000)
  | .decDin => (0xFFFFFFFF, 0x92000000)
  | .decOst => (0xFFFFFFFF, 0x93000000)
  | .mode _ => (0xFFFFFFFE, 0xA0000000)
  | .stat => (0xFFFFFFFF, 0xB0000000)
  | .frameRlyOn _ _ _ _ => (0x00FFFFF0FFFF0000, 0x0006000001000000)
  | .frameRlyOff _ _ _ _ => (0x00FFFFF0FFFF0000, 0x0006000002000000)
  | .frameDinRd _ _ _ _ => (0x00FFFFF0FFFF0000, 0x0003008000010000)
  | .frameOstRd _ _ _ _ => (0x00FFFFF0FFFF0000, 0x0003000000010000)

/-- The encoding of the instruction fits its row. -/
def Statement (i : Instr) : Prop := fits (encode i) (row i).1 (row i).2

theorem crcInit : Statement .crcInit := rfl

theorem crcUpd (b : Byte) : Statement (.crcUpd b) := by
  refine BitVec.eq_of_getLsbD_eq fun k hk => ?_
  simp only [packCommand, row, BitVec.getLsbD_and, BitVec.getLsbD_append]
  interval_cases k <;> simp

theorem crcGet : Statement .crcGet := rfl

theorem mapRly (ch : Byte) (act : Byte) : Statement (.mapRly ch act) := by
  refine BitVec.eq_of_getLsbD_eq fun k hk => ?_
  simp only [packCommand, row, BitVec.getLsbD_and, BitVec.getLsbD_append]
  interval_cases k <;> simp

theorem mapDin (ch : Byte) : Statement (.mapDin ch) := by
  refine BitVec.eq_of_getLsbD_eq fun k hk => ?_
  simp only [packCommand, row, BitVec.getLsbD_and, BitVec.getLsbD_append]
  interval_cases k <;> simp

theorem mapOst (ch : Byte) : Statement (.mapOst ch) := by
  refine BitVec.eq_of_getLsbD_eq fun k hk => ?_
  simp only [packCommand, row, BitVec.getLsbD_and, BitVec.getLsbD_append]
  interval_cases k <;> simp

theorem bldRly (dev : Byte) (ch : Byte) (act : Byte) : Statement (.bldRly dev ch act) := by
  refine BitVec.eq_of_getLsbD_eq fun k hk => ?_
  simp only [packCommand, row, BitVec.getLsbD_and, BitVec.getLsbD_append]
  interval_cases k <;> simp

theorem bldDin (dev : Byte) (ch : Byte) : Statement (.bldDin dev ch) := by
  refine BitVec.eq_of_getLsbD_eq fun k hk => ?_
  simp only [packCommand, row, BitVec.getLsbD_and, BitVec.getLsbD_append]
  interval_cases k <;> simp

theorem bldOst (dev : Byte) (ch : Byte) : Statement (.bldOst dev ch) := by
  refine BitVec.eq_of_getLsbD_eq fun k hk => ?_
  simp only [packCommand, row, BitVec.getLsbD_and, BitVec.getLsbD_append]
  interval_cases k <;> simp

theorem txRd (i : BitVec 3) : Statement (.txRd i) := by
  refine BitVec.eq_of_getLsbD_eq fun k hk => ?_
  simp only [packCommand, row, BitVec.getLsbD_and, BitVec.getLsbD_append]
  interval_cases k <;> simp

theorem rxClr : Statement .rxClr := rfl

theorem rxPush (b : Byte) : Statement (.rxPush b) := by
  refine BitVec.eq_of_getLsbD_eq fun k hk => ?_
  simp only [packCommand, row, BitVec.getLsbD_and, BitVec.getLsbD_append]
  interval_cases k <;> simp

theorem decRly : Statement .decRly := rfl

theorem decDin : Statement .decDin := rfl

theorem decOst : Statement .decOst := rfl

theorem mode (m : BitVec 1) : Statement (.mode m) := by
  refine BitVec.eq_of_getLsbD_eq fun k hk => ?_
  simp only [packCommand, row, BitVec.getLsbD_and, BitVec.getLsbD_append]
  interval_cases k <;> simp

theorem stat : Statement .stat := rfl

theorem frameRlyOn (dev : Byte) (n : BitVec 4) (lo : Byte) (hi : Byte) : Statement (.frameRlyOn dev n lo hi) := by
  refine BitVec.eq_of_getLsbD_eq fun k hk => ?_
  simp only [packFrame, row, BitVec.getLsbD_and, BitVec.getLsbD_append]
  interval_cases k <;> simp

theorem frameRlyOff (dev : Byte) (n : BitVec 4) (lo : Byte) (hi : Byte) : Statement (.frameRlyOff dev n lo hi) := by
  refine BitVec.eq_of_getLsbD_eq fun k hk => ?_
  simp only [packFrame, row, BitVec.getLsbD_and, BitVec.getLsbD_append]
  interval_cases k <;> simp

theorem frameDinRd (dev : Byte) (n : BitVec 4) (lo : Byte) (hi : Byte) : Statement (.frameDinRd dev n lo hi) := by
  refine BitVec.eq_of_getLsbD_eq fun k hk => ?_
  simp only [packFrame, row, BitVec.getLsbD_and, BitVec.getLsbD_append]
  interval_cases k <;> simp

theorem frameOstRd (dev : Byte) (n : BitVec 4) (lo : Byte) (hi : Byte) : Statement (.frameOstRd dev n lo hi) := by
  refine BitVec.eq_of_getLsbD_eq fun k hk => ?_
  simp only [packFrame, row, BitVec.getLsbD_and, BitVec.getLsbD_append]
  interval_cases k <;> simp

end Sys2Proof.Laws.EncodingPattern
end

