-- ==== Sys2Proof/Tests/Slice0.lean ====
section
/-! SUPPORT. The model's own tests. Expected values come from spec/95_test_vectors.md (the section is named with each group) or are
worked out by hand from the rule named; none is the model's own answer. -/

namespace Sys2Proof.Tests

open Machine

/-! ### Helpers -/

/-- One step runs the wire word and leaves a state with `p`. -/
def ran (s : State) (nbits w : Nat) (p : State → Bool) : Bool :=
  match step (s.withFetchWord nbits w) with
  | .next t => p t
  | .fault _ => false
  | .refused _ => false

/-- One step stops with the refusal `r`. -/
def stopped (s : State) (nbits w : Nat) (r : Refusal) : Bool :=
  match step (s.withFetchWord nbits w) with
  | .next _ => false
  | .fault _ => false
  | .refused q => q == r

/-- The frame of `BLD.RLY 1, 1, on` stands in TXF (95_test_vectors.md P2: `01 06 00 01 01 00 D9 9A`, CRC 0x9AD9). -/
def built : State :=
  { State.reset with txf := [(0, 0x01), (1, 0x06), (3, 0x01), (4, 0x01), (6, 0xD9), (7, 0x9A)], txv := true, crc := 0x9AD9 }

/-- The response `01 03 02 00 01 79 84` stands in RXB (95_test_vectors.md section 5.1, row 12). -/
def loaded : State :=
  { State.reset with rxb := [(0, 0x01), (1, 0x03), (2, 0x02), (4, 0x01), (5, 0x79), (6, 0x84)], rxlen := 7 }

/-- A state whose next input is `i`. -/
def facing (s : State) (i : Input) : State := { s with inputs := [i] }

/-! ### Well-formedness: an ill-formed term for each check (43_encoder.md R169, 30_encoding.md R92) -/

/-- The device check; a bad channel or action is not ill-formed (R84). -/
theorem test_wf_bldRly_device : (Instr.bldRly 0 1 1).wf = false ∧ (Instr.bldRly 248 1 1).wf = false ∧ (Instr.bldRly 1 9 7).wf = true ∧
    (Instr.bldRly 247 8 2).wf = true := by decide

theorem test_wf_bldDin_device : (Instr.bldDin 0 1).wf = false ∧ (Instr.bldDin 255 1).wf = false ∧ (Instr.bldDin 247 0).wf = true := by decide

theorem test_wf_bldOst_device : (Instr.bldOst 0 1).wf = false ∧ (Instr.bldOst 248 1).wf = false ∧ (Instr.bldOst 1 8).wf = true := by decide

/-- Frames of 95_test_vectors.md sections 1 and 4.2. -/
theorem test_wf_frame_good : (Instr.frameRlyOn 1 1 0xD9 0x9A).wf = true ∧ (Instr.frameRlyOff 247 8 0x1D 0xFE).wf = true ∧
    (Instr.frameDinRd 1 1 0xD4 0x22).wf = true ∧ (Instr.frameOstRd 247 9 0x40 0x9E).wf = true := by decide +kernel

theorem test_wf_frame_device : (Instr.frameRlyOn 0 1 0xD9 0x9A).wf = false ∧ (Instr.frameRlyOff 248 8 0x1D 0xFE).wf = false ∧
    (Instr.frameDinRd 0 1 0xD4 0x22).wf = false ∧ (Instr.frameOstRd 255 9 0x40 0x9E).wf = false := by decide

/-- A CRC that is not the body's, one of them with its bytes swapped. -/
theorem test_wf_frame_crc : (Instr.frameRlyOn 1 1 0x9A 0xD9).wf = false ∧ (Instr.frameRlyOff 247 8 0x1D 0xFF).wf = false ∧
    (Instr.frameDinRd 1 1 0xD5 0x22).wf = false ∧ (Instr.frameOstRd 247 9 0x40 0x9F).wf = false := by decide +kernel

/-- The nibble check alone: the CRC bytes are the right ones for these bodies (41_crc.md R122, worked outside the model). -/
theorem test_wf_frame_nibble : (Instr.frameRlyOn 1 0 0x88 0x5A).wf = false ∧ (Instr.frameRlyOff 1 9 0x58 0xA8).wf = false ∧
    (Instr.frameDinRd 1 9 0x55 0xE0).wf = false ∧ (Instr.frameOstRd 1 10 0xA4 0x08).wf = false := by decide +kernel

/-! ### Decoding: one word per constructor, written bit by bit from 30_encoding.md R81, R82, R92 -/

/-! Each word is OP, RSV, KIND, DEV, CH, ARG, most significant bit first. -/

theorem test_decode_crcInit : decodeTableWord 32 0b0001_00_00_00000000_00000000_00000000 = some (.crcInit) := by decide

theorem test_decode_crcUpd : decodeTableWord 32 0b0010_00_00_00000000_00000000_11000101 = some (.crcUpd 0xC5) := by decide

theorem test_decode_crcGet : decodeTableWord 32 0b0011_00_00_00000000_00000000_00000000 = some (.crcGet) := by decide

theorem test_decode_mapRly : decodeTableWord 32 0b0100_00_01_00000000_00000101_00000010 = some (.mapRly 5 2) := by decide

theorem test_decode_mapDin : decodeTableWord 32 0b0100_00_10_00000000_00000101_00000000 = some (.mapDin 5) := by decide

theorem test_decode_mapOst : decodeTableWord 32 0b0100_00_11_00000000_00000101_00000000 = some (.mapOst 5) := by decide

theorem test_decode_bldRly : decodeTableWord 32 0b0101_00_01_00010001_00000011_00000001 = some (.bldRly 0x11 3 1) := by decide

theorem test_decode_bldDin : decodeTableWord 32 0b0101_00_10_00010001_00000101_00000000 = some (.bldDin 0x11 5) := by decide

theorem test_decode_bldOst : decodeTableWord 32 0b0101_00_11_11110111_00001000_00000000 = some (.bldOst 0xF7 8) := by decide

theorem test_decode_txRd : decodeTableWord 32 0b0110_00_00_00000000_00000000_00000110 = some (.txRd 6) := by decide

theorem test_decode_rxClr : decodeTableWord 32 0b0111_00_00_00000000_00000000_00000000 = some (.rxClr) := by decide

theorem test_decode_rxPush : decodeTableWord 32 0b1000_00_00_00000000_00000000_10000100 = some (.rxPush 0x84) := by decide

theorem test_decode_decRly : decodeTableWord 32 0b1001_00_01_00000000_00000000_00000000 = some (.decRly) := by decide

theorem test_decode_decDin : decodeTableWord 32 0b1001_00_10_00000000_00000000_00000000 = some (.decDin) := by decide

theorem test_decode_decOst : decodeTableWord 32 0b1001_00_11_00000000_00000000_00000000 = some (.decOst) := by decide

theorem test_decode_mode : decodeTableWord 32 0b1010_00_00_00000000_00000000_00000001 = some (.mode 1) := by decide

theorem test_decode_stat : decodeTableWord 32 0b1011_00_00_00000000_00000000_00000000 = some (.stat) := by decide

/-! Each frame is its eight bytes, byte 0 first (95_test_vectors.md sections 1 and 4.2). -/

theorem test_decode_frameRlyOn : decodeTableWord 64 0x01_06_00_01_01_00_D9_9A = some (.frameRlyOn 1 1 0xD9 0x9A) := by decide

theorem test_decode_frameRlyOff : decodeTableWord 64 0xF7_06_00_08_02_00_1D_FE = some (.frameRlyOff 0xF7 8 0x1D 0xFE) := by decide

theorem test_decode_frameDinRd : decodeTableWord 64 0x11_03_00_85_00_01_97_73 = some (.frameDinRd 0x11 5 0x97 0x73) := by decide

theorem test_decode_frameOstRd : decodeTableWord 64 0xF7_03_00_09_00_01_40_9E = some (.frameOstRd 0xF7 9 0x40 0x9E) := by decide

/-! Words of 95_test_vectors.md section 6.2, and the pattern of no row. -/

theorem test_illegal_words_1 : ([
    0x00000000, 0xFFFFFFFF, 0xC0000000, 0x14000000, 0x11000000, 0x10010000, 0x20000100, 0x30000001] : List CmdWord).all
    (fun w => decode (.cw32 w) == .reject .illegalCommand) = true := by decide

theorem test_illegal_words_2 : ([
    0x40000100, 0x42000101, 0x41010101, 0x50010100, 0x53010180, 0x60000008, 0x61000000, 0x70000001] : List CmdWord).all
    (fun w => decode (.cw32 w) == .reject .illegalCommand) = true := by decide

theorem test_illegal_words_3 : ([
    0x81000000, 0x90000000, 0x91000001, 0x92010000, 0xA0000002, 0xA1000001, 0xB0000001, 0xB3000000] : List CmdWord).all
    (fun w => decode (.cw32 w) == .reject .illegalCommand) = true := by decide

/-- Function code 5, and a read whose address nibble is neither 0 nor 8, are no row of R92. -/
theorem test_no_frame : decode (.rqf64 0x0105000101000000) = .reject .notRequestFrame ∧
    decode (.rqf64 0x0103001100010000) = .reject .notRequestFrame := by decide

/-- 95_test_vectors.md section 4.2 and R215. -/
theorem test_encode : encode (.bldRly 0x11 3 1) = .cw32 0x51110301 ∧ encode (.frameDinRd 1 1 0xD4 0x22) = .rqf64 0x010300810001D422 := by decide

/-! ### One step each -/

/-- Section 2.4, line 14. -/
theorem test_crcInit : ran { State.reset with crc := 0x9AD9 } 32 0x10000000
    (fun t => t.crc == 0xFFFF && t.responses == [0]) = true := by decide

/-- Section 2.4, line 2. -/
theorem test_crcUpd : ran State.reset 32 0x20000001
    (fun t => t.crc == 0x807E && t.responses == [0]) = true := by decide

/-- Section 2.4, line 12. -/
theorem test_crcUpd_residue : ran { State.reset with crc := 0x009A } 32 0x2000009A
    (fun t => t.crc == 0) = true := by decide

/-- Section 2.4, line 9. -/
theorem test_crcGet : ran { State.reset with crc := 0x9AD9 } 32 0x30000000
    (fun t => t.crc == 0x9AD9 && t.responses == [0x9AD9]) = true := by decide

/-- R145: fc 0x06, addr 8, data 0x0200 at the payload places of R88. -/
theorem test_mapRly : ran State.reset 32 0x41000802
    (fun t => t.responses == [0x0000000600080200]) = true := by decide

/-- Section 3.2: both invalid, the channel is reported. -/
theorem test_mapRly_priority : ran State.reset 32 0x41000907
    (fun t => t.responses == [0x1000000000000000]) = true := by decide

/-- R146: fc 0x03, addr 0x0088, data 1. -/
theorem test_mapDin : ran State.reset 32 0x42000800
    (fun t => t.responses == [0x0000000300880001]) = true := by decide

/-- Section 3.2. -/
theorem test_mapDin_zero : ran State.reset 32 0x42000000
    (fun t => t.responses == [0x1000000000000000] && t.txv == false) = true := by decide

/-- R147, OSTAT_OFFSET 0. -/
theorem test_mapOst : ran State.reset 32 0x43000800
    (fun t => t.responses == [0x0000000300080001]) = true := by decide

/-- R147, OSTAT_OFFSET 1. -/
theorem test_mapOst_offset : ran { State.reset with cfg := { ostatOffset := 1 } } 32 0x43000800
    (fun t => t.responses == [0x0000000300090001]) = true := by decide

/-- Section 4.3, line 2. -/
theorem test_bldRly : ran State.reset 32 0x51010101
    (fun t => t.txBytes == [0x01, 0x06, 0x00, 0x01, 0x01, 0x00, 0xD9, 0x9A] && t.crc == 0x9AD9 && t.txv) = true := by decide +kernel

/-- Section 4.3, line 7. -/
theorem test_bldRly_fails : ran built 32 0x51010901
    (fun t => t.txv == false && t.txf == built.txf && t.crc == 0x9AD9 && t.responses == [0x1000000000000000]) = true := by decide

/-- Section 4.2. -/
theorem test_bldDin : ran built 32 0x52F70800
    (fun t => t.txBytes == [0xF7, 0x03, 0x00, 0x88, 0x00, 0x01, 0x10, 0xB6] && t.crc == 0xB610) = true := by decide +kernel

/-- Section 4.3, line 19: ARG = 1 is an illegal word, and TXV stays. -/
theorem test_bldDin_illegal : ran built 32 0x52010101
    (fun t => t.txv && t.responses == [0x3000000000000000]) = true := by decide

/-- Section 4.2, OSTAT_OFFSET 1. -/
theorem test_bldOst : ran { State.reset with cfg := { ostatOffset := 1 } } 32 0x53F70800
    (fun t => t.txBytes == [0xF7, 0x03, 0x00, 0x09, 0x00, 0x01, 0x40, 0x9E]) = true := by decide +kernel

/-- Section 4.3, line 14. -/
theorem test_bldOst_fails : ran built 32 0x53010900
    (fun t => t.txv == false && t.responses == [0x1000000000000000]) = true := by decide

/-- Section 4.3, line 4. -/
theorem test_txRd : ran built 32 0x60000007
    (fun t => t.responses == [0x9A] && t.txv) = true := by decide

/-- Section 4.3, line 1. -/
theorem test_txRd_noFrame : ran State.reset 32 0x60000000
    (fun t => t.responses == [0x3000000000000000]) = true := by decide

/-- Section 5.2, line 6. -/
theorem test_rxClr : ran loaded 32 0x70000000
    (fun t => t.rxlen == 0 && t.responses == [0]) = true := by decide

/-- R183. -/
theorem test_rxPush : ran loaded 32 0x80000055
    (fun t => t.rxlen == 8 && t.rxb.read 7 == 0x55 && t.rxb.read 6 == 0x84) = true := by decide

/-- Section 5.2: the 257th push. -/
theorem test_rxPush_full : ran { State.reset with rxlen := 256 } 32 0x800000AA
    (fun t => t.rxlen == 256 && t.responses == [0x3000000000000000]) = true := by decide

/-- Section 5.1, row 30. -/
theorem test_decRly : ran loaded 32 0x91000000
    (fun t => t.responses == [0x3] && t.rxlen == 0 && t.crc == 0xFFFF) = true := by decide

/-- Section 5.1, row 3. -/
theorem test_decRly_timeout : ran State.reset 32 0x91000000
    (fun t => t.responses == [0x6]) = true := by decide

/-- Section 5.1, row 12. -/
theorem test_decDin_strict : ran { loaded with strict := true } 32 0x92000000
    (fun t => t.responses == [0x1] && t.rxlen == 0 && t.crc == 0x8479) = true := by decide +kernel

/-- Section 5.1, row 6. -/
theorem test_decDin_short : ran { loaded with rxlen := 4 } 32 0x92000000
    (fun t => t.responses == [0xA]) = true := by decide

/-- Section 5.1, row 13, reference mode. -/
theorem test_decOst : ran loaded 32 0x93000000
    (fun t => t.responses == [0x1] && t.crc == 0xFFFF) = true := by decide

/-- Section 5.1, row 19, the other read kind. -/
theorem test_decOst_damaged : ran { loaded with rxb := [(0, 0x01), (1, 0x03), (2, 0x02), (4, 0x01), (5, 0x79), (6, 0x85)], strict := true } 32 0x93000000
    (fun t => t.responses == [0xA] && t.crc == 0x8479) = true := by decide +kernel

/-- Section 6.1, line 2. -/
theorem test_mode : ran State.reset 32 0xA0000001
    (fun t => t.strict && t.responses == [0]) = true := by decide

/-- Section 6.1, line 13. -/
theorem test_mode_zero : ran { State.reset with strict := true } 32 0xA0000000
    (fun t => t.strict == false) = true := by decide

/-- Section 6.1, line 12. -/
theorem test_stat : ran { loaded with strict := true, txv := true, rxlen := 5 } 32 0xB0000000
    (fun t => t.responses == [0x503]) = true := by decide

/-- Section 6.1. -/
theorem test_stat_offset : ran { State.reset with cfg := { ostatOffset := 1 } } 32 0xB0000000
    (fun t => t.responses == [0x10]) = true := by decide

/-- R212: the eight bytes go on the bus, byte 0 first, and the block is untouched. -/
theorem test_frameRlyOn : ran State.reset 64 0x010600010100D99A
    (fun t => t.bus.map Cycle.frame == [[0x01, 0x06, 0x00, 0x01, 0x01, 0x00, 0xD9, 0x9A]] && t.responses == [] && t.crc == 0xFFFF) = true := by decide

/-- R212: the eight bytes go on the bus, byte 0 first, and the block is untouched. -/
theorem test_frameRlyOff : ran State.reset 64 0xF706000802001DFE
    (fun t => t.bus.map Cycle.frame == [[0xF7, 0x06, 0x00, 0x08, 0x02, 0x00, 0x1D, 0xFE]] && t.responses == [] && t.crc == 0xFFFF) = true := by decide

/-- R212: the eight bytes go on the bus, byte 0 first, and the block is untouched. -/
theorem test_frameDinRd : ran State.reset 64 0x1103008500019773
    (fun t => t.bus.map Cycle.frame == [[0x11, 0x03, 0x00, 0x85, 0x00, 0x01, 0x97, 0x73]] && t.responses == [] && t.crc == 0xFFFF) = true := by decide

/-- R212: the eight bytes go on the bus, byte 0 first, and the block is untouched. -/
theorem test_frameOstRd : ran State.reset 64 0xF70300090001409E
    (fun t => t.bus.map Cycle.frame == [[0xF7, 0x03, 0x00, 0x09, 0x00, 0x01, 0x40, 0x9E]] && t.responses == [] && t.crc == 0xFFFF) = true := by decide

/-- R212: a fixed reply comes back to the Exchange it is the next of. -/
theorem test_frame_reply : ran { State.reset with replies := [.bytes [0x01, 0x03], .transportError] } 64 0x010300810001D422
    (fun t => t.bus.map Cycle.reply == [.bytes [0x01, 0x03]] && t.replies == [.transportError]) = true := by decide

/-- R169: refused whole, a bad channel beside it or not. -/
theorem test_device_refused : stopped State.reset 32 0x51000101 .deviceOutOfRange = true ∧ stopped State.reset 32 0x52F80900 .deviceOutOfRange = true := by decide

/-- log 7. -/
theorem test_no_frame_refused : stopped State.reset 64 0x0105000101000000 .notRequestFrame = true := by decide

/-- R280. -/
theorem test_reset_input : (match step (facing { built with strict := true } .reset) with
    | .next t => t.crc == 0xFFFF && t.txv == false && t.strict == false && t.responses == []
    | .fault _ => false
    | .refused _ => false) = true := by decide

/-- R281: no response, and the reset state. -/
theorem test_reset_cuts_short : (match step (facing built (.presentThenReset 0x20000001)) with
    | .next t => t.crc == 0xFFFF && t.txv == false && t.responses == []
    | .fault _ => false
    | .refused _ => false) = true := by decide

/-- A byte 00 pushed on a buffer that lists nothing lists nothing: equal memories are equal data. -/
theorem test_push_zero_keeps_form : ran State.reset 32 0x80000000 (fun t => t.rxb == [] && t.rxlen == 1) = true := by decide

/-! ### The hypotheses of the statements can be met: a concrete state and operands for each clause, at the ends of its ranges -/

theorem witness_CrcInitLoadsAllOnes : opField 0x10000001 = 0x1 ∧ (0x10000001 : CmdWord) ≠ 0x10000000 ∧ opField 0x1FFFFFFF = 0x1 := by decide

theorem witness_CrcUpdateAbsorbsOneByte : (opField 0x24000000 = 0x2 ∧ rsvField 0x24000000 ≠ 0) ∧ (opField 0x21000000 = 0x2 ∧ kindField 0x21000000 ≠ 0) ∧
    (opField 0x20010000 = 0x2 ∧ devField 0x20010000 ≠ 0) ∧ (opField 0x20000100 = 0x2 ∧ chField 0x20000100 ≠ 0) := by decide

theorem witness_CrcGetReturnsRegister : opField 0x30000001 = 0x3 ∧ (0x30000001 : CmdWord) ≠ 0x30000000 := by decide

theorem witness_CrcDetectsOneChangedByte : (0x01 : Byte) ≠ 0x02 := by decide

theorem witness_MapRelayResolves : (opField 0x45000301 = 0x4 ∧ kindField 0x45000301 = 1 ∧ rsvField 0x45000301 ≠ 0) ∧
    (opField 0x41010301 = 0x4 ∧ kindField 0x41010301 = 1 ∧ devField 0x41010301 ≠ 0) := by decide

theorem witness_MapInputResolves : (opField 0x46000500 = 0x4 ∧ kindField 0x46000500 = 2 ∧ rsvField 0x46000500 ≠ 0) ∧
    (opField 0x42010500 = 0x4 ∧ kindField 0x42010500 = 2 ∧ devField 0x42010500 ≠ 0) ∧
    (opField 0x42000501 = 0x4 ∧ kindField 0x42000501 = 2 ∧ argField 0x42000501 ≠ 0) := by decide

theorem witness_MapOutputStatusResolves : (opField 0x47000200 = 0x4 ∧ kindField 0x47000200 = 3 ∧ rsvField 0x47000200 ≠ 0) ∧
    (opField 0x43010200 = 0x4 ∧ kindField 0x43010200 = 3 ∧ devField 0x43010200 ≠ 0) ∧
    (opField 0x43000280 = 0x4 ∧ kindField 0x43000280 = 3 ∧ argField 0x43000280 ≠ 0) := by decide

theorem witness_BuildRelayFrame : (State.reset.txf.wf txfSize = true ∧ 1 ≤ (1 : Byte).toNat ∧ (1 : Byte).toNat ≤ 247 ∧ 1 ≤ (1 : Byte).toNat ∧ (1 : Byte).toNat ≤ 8 ∧
    ((0x01 : Byte) = 0x01 ∨ (0x01 : Byte) = 0x02)) ∧
    (built.txf.wf txfSize = true ∧ 1 ≤ (247 : Byte).toNat ∧ (247 : Byte).toNat ≤ 247 ∧ 1 ≤ (8 : Byte).toNat ∧ (8 : Byte).toNat ≤ 8 ∧
    ((0x02 : Byte) = 0x01 ∨ (0x02 : Byte) = 0x02)) := by decide

theorem witness_BuildInputFrame : (State.reset.txf.wf txfSize = true ∧ 1 ≤ (1 : Byte).toNat ∧ (1 : Byte).toNat ≤ 247 ∧ 1 ≤ (1 : Byte).toNat ∧ (1 : Byte).toNat ≤ 8) ∧
    (built.txf.wf txfSize = true ∧ 1 ≤ (247 : Byte).toNat ∧ (247 : Byte).toNat ≤ 247 ∧ 1 ≤ (8 : Byte).toNat ∧ (8 : Byte).toNat ≤ 8) := by decide

/-- OSTAT_OFFSET is either value: the statement has no premise on it. -/
theorem witness_BuildOutputStatusFrame : (State.reset.txf.wf txfSize = true ∧ 1 ≤ (1 : Byte).toNat ∧ (1 : Byte).toNat ≤ 247 ∧ 1 ≤ (1 : Byte).toNat ∧ (1 : Byte).toNat ≤ 8) ∧
    (built.txf.wf txfSize = true ∧ 1 ≤ (247 : Byte).toNat ∧ (247 : Byte).toNat ≤ 247 ∧ 1 ≤ (8 : Byte).toNat ∧ (8 : Byte).toNat ≤ 8) := by decide

theorem witness_FailedBuildClearsOnlyFrameValid : (1 ≤ (1 : Byte).toNat ∧ (1 : Byte).toNat ≤ 247 ∧ ((0 : Byte).toNat < 1 ∨ 8 < (0 : Byte).toNat)) ∧
    (1 ≤ (247 : Byte).toNat ∧ (247 : Byte).toNat ≤ 247 ∧ ((9 : Byte).toNat < 1 ∨ 8 < (9 : Byte).toNat)) ∧
    (1 ≤ (1 : Byte).toNat ∧ (1 : Byte).toNat ≤ 8 ∧ (0 : Byte) ≠ 0x01 ∧ (0 : Byte) ≠ 0x02) ∧
    (1 ≤ (8 : Byte).toNat ∧ (8 : Byte).toNat ≤ 8 ∧ (3 : Byte) ≠ 0x01 ∧ (3 : Byte) ≠ 0x02) := by decide

theorem witness_BuildRefusesDeviceOutOfRange : ((0 : Byte).toNat = 0 ∨ 248 ≤ (0 : Byte).toNat) ∧ ((248 : Byte).toNat = 0 ∨ 248 ≤ (248 : Byte).toNat) ∧
    ((255 : Byte).toNat = 0 ∨ 248 ≤ (255 : Byte).toNat) := by decide

theorem witness_ReadFrameByte : built.txv = true ∧ State.reset.txv = false ∧ (opField 0x64000000 = 0x6 ∧ rsvField 0x64000000 ≠ 0) ∧
    (opField 0x61000000 = 0x6 ∧ kindField 0x61000000 ≠ 0) ∧ (opField 0x60010000 = 0x6 ∧ devField 0x60010000 ≠ 0) ∧
    (opField 0x60000100 = 0x6 ∧ chField 0x60000100 ≠ 0) ∧
    (opField 0x60000008 = 0x6 ∧ (argField 0x60000008).extractLsb' 3 5 ≠ 0) := by decide

theorem witness_ReadoutGivesFrameAndKeepsIt : built.txv = true := by decide

theorem witness_BuiltFrameHasItsShape : (1 ≤ (1 : Byte).toNat ∧ (8 : Byte).toNat ≤ 8) ∧
    mapRelay 1 0x01 = .ok ⟨0x06, 0x0001, 0x0100⟩ ∧ mapRelay 8 0x02 = .ok ⟨0x06, 0x0008, 0x0200⟩ ∧
    mapInput 8 = .ok ⟨0x03, 0x0088, 0x0001⟩ ∧ mapOstat 1 8 = .ok ⟨0x03, 0x0009, 0x0001⟩ := ⟨by decide, rfl, rfl, rfl, rfl⟩

theorem witness_FrameDeterminesRequest : buildFrame 1 ⟨0x06, 0x0001, 0x0100⟩ = buildFrame 1 ⟨0x06, 0x0001, 0x0100⟩ ∧
    mapRelay 1 0x01 = .ok ⟨0x06, 0x0001, 0x0100⟩ ∧ mapInput 8 = .ok ⟨0x03, 0x0088, 0x0001⟩ ∧
    mapOstat 0 8 = .ok ⟨0x03, 0x0008, 0x0001⟩ := ⟨rfl, rfl, rfl, rfl⟩

theorem witness_ClearEmptiesResponse : opField 0x70000001 = 0x7 ∧ (0x70000001 : CmdWord) ≠ 0x70000000 ∧ ∃ t, exec .rxClr loaded = .next t := ⟨by decide, by decide, _, rfl⟩

theorem witness_PushStoresAtLength : (State.reset.rxb.wf rxbSize = true ∧ State.reset.rxlen.toNat < 256) ∧
    (loaded.rxb.wf rxbSize = true ∧ (255 : BitVec 9).toNat < 256) ∧ (256 : BitVec 9).toNat = 256 ∧
    (opField 0x84000000 = 0x8 ∧ rsvField 0x84000000 ≠ 0) ∧ (opField 0x81000000 = 0x8 ∧ kindField 0x81000000 ≠ 0) ∧
    (opField 0x80010055 = 0x8 ∧ devField 0x80010055 ≠ 0) ∧ (opField 0x80000155 = 0x8 ∧ chField 0x80000155 ≠ 0) := by decide

theorem witness_StopsBeyondResponseBuffer : 256 < (257 : BitVec 9).toNat ∧ 256 < (511 : BitVec 9).toNat := by decide

theorem witness_LoadAppendsBytes : (State.reset.rxb.wf rxbSize = true ∧ State.reset.rxlen.toNat + (List.replicate 256 (0x55 : Byte)).length ≤ 256) ∧
    (loaded.rxb.wf rxbSize = true ∧ loaded.rxlen.toNat + [(0x00 : Byte)].length ≤ 256) := ⟨⟨by decide, by rw [List.length_replicate]; decide⟩, by decide⟩

theorem witness_DecodeWriteAcknowledges : State.reset.rxlen.toNat ≤ 256 ∧ (256 : BitVec 9).toNat ≤ 256 ∧ opField 0x91000001 = 0x9 ∧ kindField 0x91000001 = 1 ∧
    (0x91000001 : CmdWord) ≠ 0x91000000 := by decide

/-- The clauses are an if and else chain: empty, 1 to 4, 5 to 256. -/
theorem witness_DecodeReadReferenceMode : loaded.strict = false ∧ loaded.rxlen.toNat ≤ 256 ∧ State.reset.rxlen.toNat ≤ 256 ∧ (4 : BitVec 9).toNat < 5 ∧
    ¬ (5 : BitVec 9).toNat < 5 ∧ (256 : BitVec 9).toNat ≤ 256 := by decide

theorem witness_DecodeReadStrictMode : { loaded with strict := true }.strict = true ∧ { loaded with strict := true }.rxlen.toNat ≤ 256 := by decide

theorem witness_SecondDecodeTimesOut : Instr.decDin ∈ [Instr.decRly, .decDin, .decOst] ∧ Instr.decRly ∈ [Instr.decRly, .decDin, .decOst] ∧
    ∃ t, exec .decDin loaded = .next t := ⟨by decide, by decide, _, rfl⟩

theorem witness_StrictAcceptsTrailingZeros : 3 ≤ [(0x01 : Byte), 0x03, 0x02].length := by decide

theorem witness_ModeSetsStrict : (opField 0xA4000000 = 0xA ∧ rsvField 0xA4000000 ≠ 0) ∧ (opField 0xA1000001 = 0xA ∧ kindField 0xA1000001 ≠ 0) ∧
    (opField 0xA0010000 = 0xA ∧ devField 0xA0010000 ≠ 0) ∧ (opField 0xA0000100 = 0xA ∧ chField 0xA0000100 ≠ 0) ∧
    (opField 0xA0000002 = 0xA ∧ (argField 0xA0000002).extractLsb' 1 7 ≠ 0) := by decide

theorem witness_StatusViewReadsState : opField 0xB0000001 = 0xB ∧ (0xB0000001 : CmdWord) ≠ 0xB0000000 := by decide

theorem witness_EncodeOfDecodeIsIdentity : decode (.cw32 0x51F70802) = .instr (.bldRly 247 8 2) ∧ decode (.rqf64 0xF70300090001409E) = .instr (.frameOstRd 0xF7 9 0x40 0x9E) := by decide

/-- A command word and a request frame. -/
theorem witness_StepRunsPresentedInstruction : (facing built (.present (.cw32 0x60000007))).inputs = .present (.cw32 0x60000007) :: [] ∧
    decode (.cw32 0x60000007) = .instr (.txRd 7) ∧
    (facing built (.present (.rqf64 0x010600010100D99A))).inputs = .present (.rqf64 0x010600010100D99A) :: [] ∧
    decode (.rqf64 0x010600010100D99A) = .instr (.frameRlyOn 1 1 0xD9 0x9A) := by decide

theorem witness_IllegalWordAnsweredWithoutEffect : (facing built (.present (.cw32 0xFFFFFFFF))).inputs = .present (.cw32 0xFFFFFFFF) :: [] ∧
    decode (.cw32 0xFFFFFFFF) = .reject .illegalCommand := by decide

theorem witness_StepIdlesAndRefusesOtherFrames : built.inputs = [] ∧ (facing built (.present (.rqf64 0))).inputs = .present (.rqf64 0) :: [] ∧
    decode (.rqf64 0) = .reject .notRequestFrame := by decide

theorem witness_ResetInputResetsBlock : (facing built .reset).inputs = .reset :: [] := by decide

/-- An instruction cut short, and an illegal word cut short. -/
theorem witness_ResetAbandonsOperation : (facing built (.presentThenReset 0x51010201)).inputs = .presentThenReset 0x51010201 :: [] ∧
    decode (.cw32 0x51010201) = .instr (.bldRly 1 2 1) ∧ (Instr.bldRly 1 2 1).wf = true ∧
    (facing built (.presentThenReset 0x51010201)).rxlen.toNat ≤ 256 ∧
    (facing built (.presentThenReset 0xFFFFFFFF)).inputs = .presentThenReset 0xFFFFFFFF :: [] ∧
    decode (.cw32 0xFFFFFFFF) = .reject .illegalCommand := by decide

/-- R281 with R94: the IllegalCommand response of the word is never delivered. -/
theorem test_reset_cuts_illegal_word : (match step (facing built (.presentThenReset 0xFFFFFFFF)) with
    | .next t => t.crc == 0xFFFF && t.txv == false && t.responses == []
    | .fault _ => false
    | .refused _ => false) = true := by decide

/-- The built frame of P2 meets the invariant. -/
theorem built_inv : built.Inv := ⟨by decide +kernel, by decide +kernel, by decide +kernel, by decide +kernel, fun _ h => absurd h (List.not_mem_nil)⟩

theorem facing_inv (s : State) (i : Input) (h : s.Inv) : (facing s i).Inv := ⟨h.1, h.2, h.3, h.4, h.5⟩

theorem witness_InvariantKept : (facing built (.present (.cw32 0x60000007))).Inv ∧
    ∃ t, step (facing built (.present (.cw32 0x60000007))) = .next t := ⟨facing_inv _ _ built_inv, _, rfl⟩

/-- The frame last built is sent; a build in range with a bad channel; a reset; an illegal word cut short. -/
theorem witness_DutifulHostNeverStops : (facing built (.present (.rqf64 0x010600010100D99A))).Inv ∧
    (facing built (.present (.rqf64 0x010600010100D99A))).hostDuty = true ∧
    (facing built (.present (.cw32 0x51F70908))).hostDuty = true ∧ (facing built .reset).hostDuty = true ∧
    (facing built (.presentThenReset 0xFFFFFFFF)).hostDuty = true := ⟨facing_inv _ _ built_inv, by decide, by decide, by decide, by decide⟩

theorem witness_OnlyTheseWriteEachElement : ∃ t, exec (.rxPush 0x55) loaded = .next t ∧ t.rxb ≠ loaded.rxb ∧ t.rxlen ≠ loaded.rxlen := ⟨_, rfl, by decide, by decide⟩

theorem witness_OnlyTheseWriteEachElement_build : ∃ t, exec (.bldDin 1 1) State.reset = .next t ∧ t.crc ≠ State.reset.crc ∧ t.txf ≠ State.reset.txf ∧ t.txv = true := ⟨_, rfl, by decide +kernel, by decide +kernel, by decide +kernel⟩

theorem witness_OnlyTheseWriteEachElement_mode : ∃ t, exec (.mode 1) State.reset = .next t ∧ t.strict ≠ State.reset.strict := ⟨_, rfl, by decide⟩

theorem witness_ErrorsArePrecise : decode (.cw32 0x51010901) = .instr (.bldRly 1 9 1) ∧
    ∃ t, exec (.bldRly 1 9 1) built = .next t ∧ t.lastResponse.extractLsb' 60 4 ≠ 0 ∧ t.txv ≠ built.txv := ⟨by decide, _, rfl, by decide, by decide⟩

/-- The clauses of MAP and BLD: two states that differ in everything but OSTAT_OFFSET. -/
theorem witness_ResultsDependOnlyOnWhatWasLoaded : built.cfg = loaded.cfg ∧ built.txf.wf txfSize = true ∧ loaded.txf.wf txfSize = true ∧
    (∃ t, exec (.mapRly 1 1) built = .next t) ∧ (∃ t, exec (.mapRly 1 1) loaded = .next t) ∧
    (∃ t, exec (.bldRly 1 1 1) built = .next t) ∧ ∃ t, exec (.bldRly 1 1 1) loaded = .next t := ⟨by decide, by decide, by decide, ⟨_, rfl⟩, ⟨_, rfl⟩, ⟨_, rfl⟩, _, rfl⟩

theorem witness_ResultsDependOnlyOnWhatWasLoaded_read : built.txv = { built with crc := 0 }.txv ∧ built.txBytes = { built with crc := 0 }.txBytes ∧
    (∃ t, exec (.txRd 7) built = .next t) ∧ ∃ t, exec (.txRd 7) { built with crc := 0 } = .next t := ⟨by decide, by decide, ⟨_, rfl⟩, _, rfl⟩

theorem witness_ResultsDependOnlyOnWhatWasLoaded_decode : { loaded with strict := true }.strict = { loaded with strict := true, txv := true }.strict ∧
    { loaded with strict := true }.rxBytes = { loaded with strict := true, txv := true }.rxBytes ∧ 5 ≤ loaded.rxlen.toNat ∧
    (∃ t, exec .decDin { loaded with strict := true } = .next t) ∧
    ∃ t, exec .decDin { loaded with strict := true, txv := true } = .next t := ⟨by decide, by decide, by decide, ⟨_, rfl⟩, _, rfl⟩

theorem witness_ResultsDependOnlyOnWhatWasLoaded_crc : State.reset.crc = loaded.crc ∧ (∃ t, exec (.crcUpd 1) State.reset = .next t) ∧ (∃ t, exec (.crcUpd 1) loaded = .next t) ∧
    (∃ t, exec .crcGet State.reset = .next t) ∧ ∃ t, exec .crcGet loaded = .next t := ⟨by decide, ⟨_, rfl⟩, ⟨_, rfl⟩, ⟨_, rfl⟩, _, rfl⟩

theorem witness_ReplyIsBounded : { State.reset with replies := [.bytes [0x01]] }.nextReply = .bytes [0x01] := rfl

theorem witness_RelayWriteCycle : built.Inv ∧ built.rxlen = 0 ∧ 1 ≤ (247 : Byte).toNat ∧ (247 : Byte).toNat ≤ 247 ∧ 1 ≤ (8 : Byte).toNat ∧ (8 : Byte).toNat ≤ 8 ∧
    ((0x02 : Byte) = 0x01 ∨ (0x02 : Byte) = 0x02) := ⟨built_inv, by decide⟩

theorem witness_ReadCycles : built.Inv ∧ built.rxlen = 0 ∧ 1 ≤ (1 : Byte).toNat ∧ (1 : Byte).toNat ≤ 247 ∧ 1 ≤ (1 : Byte).toNat ∧ (1 : Byte).toNat ≤ 8 := ⟨built_inv, by decide⟩

theorem witness_BuildErrorEndsCommandBeforeIO : 1 ≤ (247 : Byte).toNat ∧ (247 : Byte).toNat ≤ 247 ∧ ((9 : Byte).toNat < 1 ∨ 8 < (9 : Byte).toNat) ∧
    (0x03 : Byte) ≠ 0x01 ∧ (0x03 : Byte) ≠ 0x02 ∧ 1 ≤ (8 : Byte).toNat ∧ (8 : Byte).toNat ≤ 8 := by decide

theorem witness_StatusBatchPollsEightInOrder : { built with replies := (List.replicate 8 [0x01]).map Reply.bytes }.Inv ∧ built.rxlen = 0 ∧ 1 ≤ (1 : Byte).toNat ∧ (1 : Byte).toNat ≤ 247 ∧
    (List.replicate 8 [(0x01 : Byte)]).length = 8 ∧ (∀ raw ∈ List.replicate 8 [(0x01 : Byte)], raw.length ≤ 256) ∧
    { built with replies := (List.replicate 8 [0x01]).map Reply.bytes }.replies =
      (List.replicate 8 [(0x01 : Byte)]).map Reply.bytes ++ [] := ⟨⟨built_inv.1, built_inv.2, built_inv.3, built_inv.4, built_inv.5⟩, by decide⟩

theorem witness_RelayBatchWritesEightInOrder : { built with replies := (List.replicate 8 [0x01]).map Reply.bytes }.Inv ∧ built.rxlen = 0 ∧ 1 ≤ (1 : Byte).toNat ∧ (1 : Byte).toNat ≤ 247 ∧ ((0x02 : Byte) = 0x01 ∨ (0x02 : Byte) = 0x02) ∧
    (List.replicate 8 [(0x01 : Byte)]).length = 8 ∧ (∀ raw ∈ List.replicate 8 [(0x01 : Byte)], raw.length ≤ 256) ∧
    { built with replies := (List.replicate 8 [0x01]).map Reply.bytes }.replies =
      (List.replicate 8 [(0x01 : Byte)]).map Reply.bytes ++ [] := ⟨⟨built_inv.1, built_inv.2, built_inv.3, built_inv.4, built_inv.5⟩, by decide⟩

theorem witness_TransportErrorEndsBatch : { built with replies := [.bytes [], .transportError] }.Inv ∧ built.rxlen = 0 ∧ 1 ≤ (1 : Byte).toNat ∧ (1 : Byte).toNat ≤ 247 ∧
    ((0x02 : Byte) = 0x01 ∨ (0x02 : Byte) = 0x02) ∧ [([] : List Byte)].length < 8 ∧ (∀ raw ∈ [([] : List Byte)], raw.length ≤ 256) ∧
    { built with replies := [.bytes [], .transportError] }.replies = [([] : List Byte)].map Reply.bytes ++ .transportError :: [] := ⟨⟨built_inv.1, built_inv.2, built_inv.3, built_inv.4, built_inv.5⟩, by decide⟩

end Sys2Proof.Tests
end

section
/-! SUPPORT. Family 10_state.md: what executing an instruction can do to the state, said once, and from it the reset values (R35), the
invariant (R25, R26), the column "written by" (R20) and what each result depends on (R33). -/

namespace Sys2Proof.Machine

/-! ### Legal response words (30_encoding.md R86, R87) -/

theorem legalResponse_ok (p : Payload) : legalResponse (packResponse statusOk p) = true := by
  simp [legalResponse, statusOk]

theorem legalResponse_raised (e : OpError) : legalResponse (packResponse e.code 0) = true := by
  cases e <;> decide

/-! ### A frame the block builds is one of the four shapes of R92 -/

theorem decode_packFrame (b0 b1 b2 b3 b4 b5 b6 b7 : Byte) :
    decode (.rqf64 (packFrame b0 b1 b2 b3 b4 b5 b6 b7)) =
      decodeFrameFields b0 b1 b2 (b3.extractLsb' 4 4) (b3.extractLsb' 0 4) b4 b5 b6 b7 := by
  simp [decode, decodeFrame]

section Shape
variable {dev : Byte} {n : BitVec 4} (offset : BitVec 1) (hdev : deviceInRange dev = true) (hlo : 1 ≤ n.toNat)
include hdev hlo

theorem emittedFrame_rlyOn (hhi : n.toNat ≤ 8) :
    emittedFrame offset ([dev, 0x06, 0x00, 0#4 ++ n, 0x01, 0x00] ++ crc16Bytes [dev, 0x06, 0x00, 0#4 ++ n, 0x01, 0x00]) = true := by
  simp [emittedFrame, crc16Bytes, decode_packFrame, decodeFrameFields, Instr.wf, frameFieldsWf, hdev, hlo, hhi]

theorem emittedFrame_rlyOff (hhi : n.toNat ≤ 8) :
    emittedFrame offset ([dev, 0x06, 0x00, 0#4 ++ n, 0x02, 0x00] ++ crc16Bytes [dev, 0x06, 0x00, 0#4 ++ n, 0x02, 0x00]) = true := by
  simp [emittedFrame, crc16Bytes, decode_packFrame, decodeFrameFields, Instr.wf, frameFieldsWf, hdev, hlo, hhi]

theorem emittedFrame_dinRd (hhi : n.toNat ≤ 8) :
    emittedFrame offset ([dev, 0x03, 0x00, 8#4 ++ n, 0x00, 0x01] ++ crc16Bytes [dev, 0x03, 0x00, 8#4 ++ n, 0x00, 0x01]) = true := by
  simp [emittedFrame, crc16Bytes, decode_packFrame, decodeFrameFields, Instr.wf, frameFieldsWf, hdev, hlo, hhi]

end Shape

/-- The nibble is `ch + OSTAT_OFFSET` of a channel 1 to 8. -/
theorem emittedFrame_ostRd {dev : Byte} {n : BitVec 4} (offset : BitVec 1) (hdev : deviceInRange dev = true)
    (hlo : 1 + offset.toNat ≤ n.toNat) (hhi : n.toNat ≤ 8 + offset.toNat) :
    emittedFrame offset ([dev, 0x03, 0x00, 0#4 ++ n, 0x00, 0x01] ++ crc16Bytes [dev, 0x03, 0x00, 0#4 ++ n, 0x00, 0x01]) = true := by
  have hn : 1 ≤ n.toNat ∧ n.toNat ≤ 9 := by have := offset.isLt; omega
  simp [emittedFrame, crc16Bytes, decode_packFrame, decodeFrameFields, Instr.wf, frameFieldsWf, hdev, hlo, hhi, hn]

/-! ### The register address a mapper gives, byte by byte (42_addrmap.md R141 to R143) -/

theorem channel_nibble : ∀ ch : Byte, channelValid ch = true → 1 ≤ (ch.setWidth 4).toNat ∧ (ch.setWidth 4).toNat ≤ 8 := by
  decide +kernel

theorem relayAddr_bytes : ∀ ch : Byte, channelValid ch = true →
    hiByte (zext16 ch) = 0 ∧ loByte (zext16 ch) = 0#4 ++ ch.setWidth 4 := by decide +kernel

theorem inputAddr_bytes : ∀ ch : Byte, channelValid ch = true →
    hiByte (0x0080 + zext16 ch) = 0 ∧ loByte (0x0080 + zext16 ch) = 8#4 ++ ch.setWidth 4 := by decide +kernel

theorem ostatAddr_bytes : ∀ (o : BitVec 1) (ch : Byte), channelValid ch = true →
    hiByte (zext16 ch + o.setWidth 16) = 0 ∧
    loByte (zext16 ch + o.setWidth 16) = 0#4 ++ (ch.setWidth 4 + o.setWidth 4) ∧
    1 + o.toNat ≤ (ch.setWidth 4 + o.setWidth 4).toNat ∧ (ch.setWidth 4 + o.setWidth 4).toNat ≤ 8 + o.toNat := by
  decide +kernel

theorem actionData_bytes {act : Byte} {data : Half} (h : actionData act = some data) :
    (hiByte data = 0x01 ∨ hiByte data = 0x02) ∧ loByte data = 0 := by
  unfold actionData at h
  split at h
  · obtain rfl := Option.some.inj h; decide
  · split at h
    · obtain rfl := Option.some.inj h; decide
    · cases h

/-- The data field of a read request (42_addrmap.md R142, R143). -/
theorem readData_bytes : hiByte 0x0001 = 0 ∧ loByte 0x0001 = 0x01 := by decide

theorem emittedFrame_of_mapRelay {dev ch act : Byte} {m : Mapping} (offset : BitVec 1) (hdev : deviceInRange dev = true)
    (h : mapRelay ch act = .ok m) : emittedFrame offset (buildFrame dev m) = true := by
  obtain ⟨hch, data, hdata, rfl⟩ := mapRelay_ok h
  obtain ⟨hlo, hhi⟩ := channel_nibble ch hch
  obtain ⟨haddrHi, haddrLo⟩ := relayAddr_bytes ch hch
  obtain ⟨hact | hact, hdataLo⟩ := actionData_bytes hdata
  · simpa only [buildFrame, buildBody, haddrHi, haddrLo, hact, hdataLo] using emittedFrame_rlyOn offset hdev hlo hhi
  · simpa only [buildFrame, buildBody, haddrHi, haddrLo, hact, hdataLo] using emittedFrame_rlyOff offset hdev hlo hhi

theorem emittedFrame_of_mapInput {dev ch : Byte} {m : Mapping} (offset : BitVec 1) (hdev : deviceInRange dev = true)
    (h : mapInput ch = .ok m) : emittedFrame offset (buildFrame dev m) = true := by
  obtain ⟨hch, rfl⟩ := mapInput_ok h
  obtain ⟨hlo, hhi⟩ := channel_nibble ch hch
  obtain ⟨haddrHi, haddrLo⟩ := inputAddr_bytes ch hch
  simpa only [buildFrame, buildBody, haddrHi, haddrLo, readData_bytes] using emittedFrame_dinRd offset hdev hlo hhi

theorem emittedFrame_of_mapOstat {dev ch : Byte} {m : Mapping} {offset : BitVec 1} (hdev : deviceInRange dev = true)
    (h : mapOstat offset ch = .ok m) : emittedFrame offset (buildFrame dev m) = true := by
  obtain ⟨hch, rfl⟩ := mapOstat_ok h
  obtain ⟨haddrHi, haddrLo, hlo, hhi⟩ := ostatAddr_bytes offset ch hch
  simpa only [buildFrame, buildBody, haddrHi, haddrLo, readData_bytes] using emittedFrame_ostRd offset hdev hlo hhi

/-! ### What executing an instruction can do -/

/-- The three builds. -/
def IsBuild (i : Instr) : Prop :=
  (∃ d c a, i = .bldRly d c a) ∨ (∃ d c, i = .bldDin d c) ∨ ∃ d c, i = .bldOst d c

/-- The four request-frame rows (30_encoding.md R92). -/
def IsFrameRow (i : Instr) : Prop :=
  (∃ d n lo hi, i = .frameRlyOn d n lo hi) ∨ (∃ d n lo hi, i = .frameRlyOff d n lo hi) ∨
    (∃ d n lo hi, i = .frameDinRd d n lo hi) ∨ ∃ d n lo hi, i = .frameOstRd d n lo hi

/-- What an instruction that answers a next state has done: every effect on the block and on the bus and, where it is more than a response,
the instructions that can have it (10_state.md R20). `exec_effect` ties it to `exec`. -/
inductive Effect (i : Instr) (s : State) : State → Prop where
  /-- only a response word, a result or an error -/
  | answered (r : RspWord) (hr : legalResponse r = true) : Effect i s (s.deliver r)
  /-- CRC.INIT and CRC.UPD -/
  | crcSet (c : Half) (hi : i = .crcInit ∨ ∃ b, i = .crcUpd b) : Effect i s (respond 0 { s with crc := c })
  /-- the error path of a build (43_encoder.md R164) -/
  | buildFailed (e : OpError) (hi : IsBuild i) : Effect i s (raise e (s.setTxv false))
  /-- a build that succeeds (43_encoder.md R164) -/
  | built (f : List Byte) (hi : IsBuild i) (hlen : f.length = txfSize) (hf : emittedFrame s.cfg.ostatOffset f = true) :
      Effect i s (respond 0 { s with txf := s.txf.writeFrom 0 f, crc := frameCrc f, txv := true })
  /-- RX.CLR -/
  | cleared (hi : i = .rxClr) : Effect i s (respond 0 { s with rxlen := 0 })
  /-- RX.PUSH on a buffer that is not full (44_decoder.md R183) -/
  | pushed (b : Byte) (hi : i = .rxPush b) (hlen : s.rxlen.toNat < rxbSize) :
      Effect i s (respond 0 { s with rxb := s.rxb.write s.rxlen.toNat b, rxlen := s.rxlen + 1 })
  /-- a decode that does not write CRC (44_decoder.md R187) -/
  | decoded (r : DecResult) (hi : i = .decRly ∨ i = .decDin ∨ i = .decOst) : Effect i s (finishDecode r s)
  /-- a strict read decode of five bytes or more (44_decoder.md R187) -/
  | decodedStrict (r : DecResult) (c : Half) (hi : i = .decDin ∨ i = .decOst) (hstrict : s.strict = true)
      (hlen : rxMinDecodable ≤ s.rxlen.toNat) : Effect i s (finishDecode r { s with crc := c })
  /-- MODE -/
  | modeSet (v : Bool) (hi : ∃ m, i = .mode m) : Effect i s (respond 0 (s.setStrict v))
  /-- a request frame given to the bus (46_commands.md R212; log 5) -/
  | exchanged (f : List Byte) (hi : IsFrameRow i) : Effect i s (exchange f s)

theorem Effect.of_respond {i : Instr} {s : State} (p : Payload) : Effect i s (respond p s) :=
  .answered _ (legalResponse_ok p)

theorem Effect.of_raise {i : Instr} {s : State} (e : OpError) : Effect i s (raise e s) :=
  .answered _ (legalResponse_raised e)

theorem Effect.of_mapOp {i : Instr} (m : Except OpError Mapping) (s : State) : Effect i s (mapOp m s) := by
  cases m with
  | error e => exact .of_raise e
  | ok m => exact .of_respond _

theorem Effect.of_buildChecked {i : Instr} {dev : Byte} {m : Except OpError Mapping} {s t : State} (hi : IsBuild i)
    (hm : ∀ r, deviceInRange dev = true → m = .ok r → emittedFrame s.cfg.ostatOffset (buildFrame dev r) = true)
    (h : buildChecked dev m s = .next t) : Effect i s t := by
  obtain ⟨hdev, rfl⟩ := buildChecked_next h
  obtain ⟨e, -, ht⟩ | ⟨r, hr, ht⟩ := buildOp_cases dev m s
  · exact ht ▸ .buildFailed e hi
  · exact ht ▸ .built _ hi rfl (hm r hdev hr)

theorem Effect.of_txRd {i : Instr} {k : BitVec 3} {s t : State} (h : execTxRd k s = .next t) : Effect i s t := by
  unfold execTxRd at h
  split at h
  · cases h; exact .of_respond _
  · cases h; exact .of_raise _

theorem Effect.of_pushOp {b : Byte} {s : State} (hle : s.rxlen.toNat ≤ rxbSize) : Effect (.rxPush b) s (pushOp b s) := by
  obtain ⟨-, ht⟩ | ⟨hne, ht⟩ := pushOp_cases b s
  · exact ht ▸ .of_raise _
  · have hlt : s.rxlen.toNat < rxbSize := lt_of_le_of_ne hle fun h => hne (BitVec.eq_of_toNat_eq h)
    exact ht ▸ .pushed b rfl hlt

theorem Effect.of_decodeReadOp {i : Instr} (hi : i = .decDin ∨ i = .decOst) (s : State) : Effect i s (decodeReadOp s) := by
  unfold decodeReadOp decodedCrc
  split
  · next h => exact .decodedStrict _ _ hi h.1 h.2
  · exact .decoded _ (.inr hi)

/-- Every instruction that answers a next state has one of the effects. -/
theorem exec_effect {i : Instr} {s t : State} (h : exec i s = .next t) : Effect i s t := by
  cases i with
  | crcInit => cases h; exact .crcSet _ (.inl rfl)
  | crcUpd b => cases h; exact .crcSet _ (.inr ⟨b, rfl⟩)
  | crcGet => cases h; exact .of_respond _
  | mapRly ch act => cases h; exact .of_mapOp _ s
  | mapDin ch => cases h; exact .of_mapOp _ s
  | mapOst ch => cases h; exact .of_mapOp _ s
  | bldRly dev ch act =>
    exact .of_buildChecked (.inl ⟨dev, ch, act, rfl⟩) (fun _ => emittedFrame_of_mapRelay _) h
  | bldDin dev ch => exact .of_buildChecked (.inr (.inl ⟨dev, ch, rfl⟩)) (fun _ => emittedFrame_of_mapInput _) h
  | bldOst dev ch => exact .of_buildChecked (.inr (.inr ⟨dev, ch, rfl⟩)) (fun _ => emittedFrame_of_mapOstat) h
  | txRd k => exact .of_txRd h
  | rxClr => cases h; exact .cleared rfl
  | rxPush b => obtain ⟨hle, rfl⟩ := rxChecked_next h; exact .of_pushOp hle
  | decRly => obtain ⟨-, rfl⟩ := rxChecked_next h; exact .decoded _ (.inl rfl)
  | decDin => obtain ⟨-, rfl⟩ := rxChecked_next h; exact .of_decodeReadOp (.inl rfl) s
  | decOst => obtain ⟨-, rfl⟩ := rxChecked_next h; exact .of_decodeReadOp (.inr rfl) s
  | mode m => cases h; exact .modeSet _ ⟨m, rfl⟩
  | stat => cases h; exact .of_respond _
  | frameRlyOn dev n lo hi => cases h; exact .exchanged _ (.inl ⟨dev, n, lo, hi, rfl⟩)
  | frameRlyOff dev n lo hi => cases h; exact .exchanged _ (.inr (.inl ⟨dev, n, lo, hi, rfl⟩))
  | frameDinRd dev n lo hi => cases h; exact .exchanged _ (.inr (.inr (.inl ⟨dev, n, lo, hi, rfl⟩)))
  | frameOstRd dev m lo hi => cases h; exact .exchanged _ (.inr (.inr (.inr ⟨dev, m, lo, hi, rfl⟩)))

/-! ### What one step can do -/

theorem runWire_next {w : Wire} {s t : State} (h : runWire w s = .next t) :
    (∃ i, decode w = .instr i ∧ exec i s = .next t) ∨
    (decode w = .reject .illegalCommand ∧ t = raise .illegalCommand s) := by
  unfold runWire at h
  split at h
  · next i hi => exact .inl ⟨i, hi, h⟩
  · next hr => exact .inr ⟨hr, (Host.Outcome.next.inj h).symm⟩
  · cases h

theorem runCutShort_next {w : CmdWord} {s t : State} (h : runCutShort w s = .next t) :
    (∃ t', runWire (.cw32 w) s = .next t') ∧ t = s.blockReset := by
  unfold runCutShort at h
  split at h
  · next t' ht => exact ⟨⟨t', ht⟩, (Host.Outcome.next.inj h).symm⟩
  · cases h
  · cases h

/-- The block idles, runs the word presented, or is reset (10_state.md R21, 70_reset_and_hazards.md R280, R281). -/
theorem step_next {s t : State} (h : step s = .next t) :
    (s.inputs = [] ∧ t = s) ∨
    (∃ w rest, s.inputs = .present w :: rest ∧ runWire w s.taken = .next t) ∨
    (∃ rest, s.inputs = .reset :: rest ∧ t = s.taken.blockReset) ∨
    ∃ w rest t', s.inputs = .presentThenReset w :: rest ∧ runWire (.cw32 w) s.taken = .next t' ∧ t = s.taken.blockReset := by
  unfold step runNext at h
  split at h
  · next hin => exact .inl ⟨hin, (Host.Outcome.next.inj h).symm⟩
  · next w rest hin => exact .inr (.inl ⟨w, rest, hin, h⟩)
  · next rest hin => exact .inr (.inr (.inl ⟨rest, hin, (Host.Outcome.next.inj h).symm⟩))
  · next w rest hin =>
    obtain ⟨⟨t', ht⟩, rfl⟩ := runCutShort_next h
    exact .inr (.inr (.inr ⟨w, rest, t', hin, ht, rfl⟩))

/-! ### Every operation keeps the invariant -/

section Kept
variable {s : State} (h : s.Inv)
include h

theorem State.Inv.deliver {r : RspWord} (hr : legalResponse r = true) : (s.deliver r).Inv where
  txf_wf := h.txf_wf
  rxb_wf := h.rxb_wf
  rxlen_le := h.rxlen_le
  frame_built := h.frame_built
  responses_legal r' hr' := by
    rw [State.deliver_responses, List.mem_append, List.mem_singleton] at hr'
    obtain hr' | rfl := hr'
    · exact h.responses_legal r' hr'
    · exact hr

theorem State.Inv.respond (p : Payload) : (Machine.respond p s).Inv := h.deliver (legalResponse_ok p)

theorem State.Inv.raise (e : OpError) : (Machine.raise e s).Inv := h.deliver (legalResponse_raised e)

theorem State.Inv.withCrc (c : Half) : State.Inv { s with crc := c } := { h with }

theorem State.Inv.withoutFrame : (s.setTxv false).Inv := { h with frame_built := nofun }

theorem State.Inv.setStrict (v : Bool) : (s.setStrict v).Inv := { h with }

theorem State.Inv.withRxlenZero : State.Inv { s with rxlen := 0 } := { h with rxlen_le := Nat.zero_le _ }

theorem State.Inv.exchange (f : List Byte) : (Machine.exchange f s).Inv := { h with }

theorem State.Inv.taken : s.taken.Inv := { h with }

theorem State.Inv.blockReset : s.blockReset.Inv :=
  { h with txf_wf := rfl, rxb_wf := rfl, rxlen_le := Nat.zero_le _, frame_built := nofun }

theorem State.Inv.withFrame {f : List Byte} (hlen : f.length = txfSize) (hf : emittedFrame s.cfg.ostatOffset f = true) :
    State.Inv { s with txf := s.txf.writeFrom 0 f, crc := frameCrc f, txv := true } :=
  { h with
    txf_wf := Memory.wf_writeFrom h.txf_wf f 0 (by omega)
    frame_built := fun _ => by
      rw [State.txBytes, Memory.bytes_writeFrom h.txf_wf hlen]
      exact hf }

theorem State.Inv.pushByte (b : Byte) (hlen : s.rxlen.toNat < rxbSize) :
    State.Inv { s with rxb := s.rxb.write s.rxlen.toNat b, rxlen := s.rxlen + 1 } :=
  { h with
    rxb_wf := Memory.wf_write h.rxb_wf hlen b
    rxlen_le := by unfold rxbSize at *; bv_omega }

theorem State.Inv.finishDecode (r : DecResult) : (Machine.finishDecode r s).Inv := h.withRxlenZero.respond _

theorem State.Inv.effect {i : Instr} {t : State} (he : Effect i s t) : t.Inv := by
  cases he with
  | answered r hr => exact h.deliver hr
  | crcSet c _ => exact (h.withCrc c).respond 0
  | buildFailed e _ => exact h.withoutFrame.raise e
  | built f _ hlen hf => exact (h.withFrame hlen hf).respond 0
  | cleared _ => exact h.withRxlenZero.respond 0
  | pushed b _ hlen => exact (h.pushByte b hlen).respond 0
  | decoded r _ => exact h.finishDecode r
  | decodedStrict r c _ _ _ => exact (h.withCrc c).finishDecode r
  | modeSet v _ => exact (h.setStrict v).respond 0
  | exchanged f _ => exact h.exchange f

theorem State.Inv.runWire {w : Wire} {t : State} (hw : Machine.runWire w s = .next t) : t.Inv := by
  obtain ⟨i, -, hexec⟩ | ⟨-, rfl⟩ := runWire_next hw
  · exact h.effect (exec_effect hexec)
  · exact h.raise _

theorem State.Inv.step {t : State} (hs : Machine.step s = .next t) : t.Inv := by
  obtain ⟨-, rfl⟩ | ⟨w, rest, -, hw⟩ | ⟨rest, -, rfl⟩ | ⟨w, rest, t', -, -, rfl⟩ := step_next hs
  · exact h
  · exact h.taken.runWire hw
  · exact h.taken.blockReset
  · exact h.taken.blockReset

end Kept

/-- Settles O48: every input either runs an instruction, whose effects each keep the invariant, or raises, or resets. -/
theorem invariantKept : Obligations.InvariantKept := fun _ _ hinv hstep => hinv.step hstep

/-- Settles O46. -/
theorem resetValues : Obligations.ResetValues := ⟨rfl, rfl, rfl, rfl⟩

/-- Settles O47: both buffers list nothing, no frame is valid and no response has been delivered. -/
theorem invariantAtReset : Obligations.InvariantAtReset where
  txf_wf := rfl
  rxb_wf := rfl
  rxlen_le := Nat.zero_le _
  frame_built := nofun
  responses_legal := nofun

/-! ### Which instructions write which element (10_state.md R20) -/

namespace Effect

variable {i : Instr} {s t : State} (h : Effect i s t)
include h

theorem crc_written (hne : t.crc ≠ s.crc) :
    i = .crcInit ∨ (∃ b, i = .crcUpd b) ∨ (IsBuild i ∧ t.txv = true) ∨
      ((i = .decDin ∨ i = .decOst) ∧ s.strict = true ∧ rxMinDecodable ≤ s.rxlen.toNat) := by
  cases h with
  | crcSet c hi => exact hi.elim .inl fun hb => .inr (.inl hb)
  | built f hi _ _ => exact .inr (.inr (.inl ⟨hi, rfl⟩))
  | decodedStrict r c hi hstrict hlen => exact .inr (.inr (.inr ⟨hi, hstrict, hlen⟩))
  | _ => exact absurd rfl hne

theorem txf_written (hne : t.txf ≠ s.txf) : IsBuild i ∧ t.txv = true := by
  cases h with
  | built f hi _ _ => exact ⟨hi, rfl⟩
  | _ => exact absurd rfl hne

theorem txv_written (hne : t.txv ≠ s.txv) : IsBuild i := by
  cases h with
  | built f hi _ _ => exact hi
  | buildFailed e hi => exact hi
  | _ => exact absurd rfl hne

theorem rxb_written (hne : t.rxb ≠ s.rxb) : ∃ b, i = .rxPush b := by
  cases h with
  | pushed b hi _ => exact ⟨b, hi⟩
  | _ => exact absurd rfl hne

theorem rxlen_written (hne : t.rxlen ≠ s.rxlen) :
    i = .rxClr ∨ (∃ b, i = .rxPush b) ∨ i = .decRly ∨ i = .decDin ∨ i = .decOst := by
  cases h with
  | cleared hi => exact .inl hi
  | pushed b hi _ => exact .inr (.inl ⟨b, hi⟩)
  | decoded r hi => exact .inr (.inr hi)
  | decodedStrict r c hi _ _ => exact .inr (.inr (.inr hi))
  | _ => exact absurd rfl hne

theorem strict_written (hne : t.strict ≠ s.strict) : ∃ m, i = .mode m := by
  cases h with
  | modeSet v hi => exact hi
  | _ => exact absurd rfl hne

theorem cfg_kept : t.cfg = s.cfg := by
  cases h <;> rfl

end Effect

theorem not_isBuild_of_crcOperation {i : Instr}
    (hi : i = .crcInit ∨ (∃ b, i = .crcUpd b) ∨ i = .decDin ∨ i = .decOst) : ¬ IsBuild i := by
  rintro (⟨d, c, a, rfl⟩ | ⟨d, c, rfl⟩ | ⟨d, c, rfl⟩) <;> simp at hi

/-- Settles O50: each clause is read off the effects that change its element. -/
theorem onlyTheseWriteEachElement : Obligations.OnlyTheseWriteEachElement := by
  intro i s t hexec
  have h := exec_effect hexec
  refine ⟨fun hne => ?_, fun hb hne => ?_, fun hne => ?_, fun hne => (h.txf_written hne).2, h.rxb_written, h.rxlen_written,
    h.strict_written, h.cfg_kept⟩
  · obtain hi | hi | ⟨hb | hb | hb, -⟩ | hd := h.crc_written hne
    · exact .inl hi
    · exact .inr (.inl hi)
    · exact .inr (.inr (.inl hb))
    · exact .inr (.inr (.inr (.inl hb)))
    · exact .inr (.inr (.inr (.inr (.inl hb))))
    · exact .inr (.inr (.inr (.inr (.inr hd))))
  · obtain hi | hi | ⟨-, htxv⟩ | ⟨hi, -, -⟩ := h.crc_written hne
    · exact absurd hb (not_isBuild_of_crcOperation (.inl hi))
    · exact absurd hb (not_isBuild_of_crcOperation (.inr (.inl hi)))
    · exact htxv
    · exact absurd hb (not_isBuild_of_crcOperation (.inr (.inr hi)))
  · exact hne.elim (fun hf => (h.txf_written hf).1) h.txv_written

/-! ### What each result depends on (10_state.md R33): two states that agree on what the rule lists -/

theorem lastResponse_mapOp (m : Except OpError Mapping) (s s' : State) :
    (mapOp m s).lastResponse = (mapOp m s').lastResponse := by
  cases m <;> simp [mapOp]

section TwoStates
variable {s s' t t' : State}

theorem map_result_congr {i : Instr} (hcfg : s.cfg = s'.cfg)
    (hi : (∃ c a, i = .mapRly c a) ∨ (∃ c, i = .mapDin c) ∨ ∃ c, i = .mapOst c)
    (h : exec i s = .next t) (h' : exec i s' = .next t') : t.lastResponse = t'.lastResponse := by
  obtain ⟨c, a, rfl⟩ | ⟨c, rfl⟩ | ⟨c, rfl⟩ := hi
  · cases h; cases h'; exact lastResponse_mapOp _ s s'
  · cases h; cases h'; exact lastResponse_mapOp _ s s'
  · cases h; cases h'; rw [hcfg]; exact lastResponse_mapOp _ s s'

/-- A build whose mapping is `m` leaves the same response, frame and CRC in any state. -/
theorem buildOp_congr (dev : Byte) (m : Except OpError Mapping) (hs : s.txf.wf txfSize = true) (hs' : s'.txf.wf txfSize = true) :
    (buildOp dev m s).lastResponse = (buildOp dev m s').lastResponse ∧ (buildOp dev m s).txv = (buildOp dev m s').txv ∧
      ((buildOp dev m s).txv = true →
        (buildOp dev m s).txBytes = (buildOp dev m s').txBytes ∧ (buildOp dev m s).crc = (buildOp dev m s').crc) := by
  cases m with
  | error e => exact ⟨by simp [buildOp], rfl, nofun⟩
  | ok r => exact ⟨by simp [buildOp], rfl, fun _ => ⟨by rw [buildOp_ok_txBytes hs, buildOp_ok_txBytes hs'], rfl⟩⟩

theorem build_result_congr {i : Instr} (hcfg : s.cfg = s'.cfg) (hi : IsBuild i) (hs : s.txf.wf txfSize = true)
    (hs' : s'.txf.wf txfSize = true) (h : exec i s = .next t) (h' : exec i s' = .next t') :
    t.lastResponse = t'.lastResponse ∧ t.txv = t'.txv ∧ (t.txv = true → t.txBytes = t'.txBytes ∧ t.crc = t'.crc) := by
  obtain ⟨dev, m, hm, hm'⟩ : ∃ dev m, exec i s = buildChecked dev m s ∧ exec i s' = buildChecked dev m s' := by
    obtain ⟨d, c, a, rfl⟩ | ⟨d, c, rfl⟩ | ⟨d, c, rfl⟩ := hi
    · exact ⟨d, mapRelay c a, rfl, rfl⟩
    · exact ⟨d, mapInput c, rfl, rfl⟩
    · exact ⟨d, mapOstat s.cfg.ostatOffset c, rfl, by rw [hcfg]; rfl⟩
  obtain ⟨-, rfl⟩ := buildChecked_next (hm ▸ h)
  obtain ⟨-, rfl⟩ := buildChecked_next (hm' ▸ h')
  exact buildOp_congr dev m hs hs'

theorem lastResponse_txRd {k : BitVec 3} (h : exec (.txRd k) s = .next t) :
    t.lastResponse = if s.txv then packResponse statusOk (bytePayload (s.txBytes.getD (txIndex k) 0)) else 0x3000000000000000 := by
  have hread : s.txBytes.getD (txIndex k) 0 = s.txf.read (txIndex k) := Memory.getD_bytes _ k.isLt
  rw [hread]
  simp only [exec, execTxRd] at h
  split at h
  · next hv => cases h; simp [hv]
  · next hv => cases h; simp [hv]

theorem decodeReadOp_congr (hstrict : s.strict = s'.strict) (hbytes : s.rxBytes = s'.rxBytes) :
    (decodeReadOp s).lastResponse = (decodeReadOp s').lastResponse := by
  simp [decodeReadOp, finishDecode, hstrict, hbytes]

/-- A strict read decode that reaches the CRC check leaves in `CRC` the CRC of the bytes pushed. -/
theorem decodeReadOp_crc_strict (hstrict : s.strict = true) (hlen : 5 ≤ s.rxlen.toNat) :
    (decodeReadOp s).crc = crc16 (withoutCrc s.rxBytes) := if_pos ⟨hstrict, hlen⟩

theorem read_result_congr (hstrict : s.strict = s'.strict) (hbytes : s.rxBytes = s'.rxBytes) (ht : t = decodeReadOp s)
    (ht' : t' = decodeReadOp s') :
    t.lastResponse = t'.lastResponse ∧ (s.strict = true → 5 ≤ s.rxlen.toNat → t.crc = t'.crc) := by
  subst ht ht'
  refine ⟨decodeReadOp_congr hstrict hbytes, fun hs hlen => ?_⟩
  have hlen' : 5 ≤ s'.rxlen.toNat := by rwa [← rxBytes_length, ← hbytes, rxBytes_length]
  rw [decodeReadOp_crc_strict hs hlen, decodeReadOp_crc_strict (hstrict ▸ hs) hlen', hbytes]

theorem decode_result_congr {i : Instr} (hi : i ∈ [Instr.decRly, .decDin, .decOst]) (hstrict : s.strict = s'.strict)
    (hbytes : s.rxBytes = s'.rxBytes) (h : exec i s = .next t) (h' : exec i s' = .next t') :
    t.lastResponse = t'.lastResponse ∧ (i ≠ .decRly → s.strict = true → 5 ≤ s.rxlen.toNat → t.crc = t'.crc) := by
  simp only [List.mem_cons, List.not_mem_nil, or_false] at hi
  obtain rfl | rfl | rfl := hi
  · obtain ⟨-, rfl⟩ := rxChecked_next h
    obtain ⟨-, rfl⟩ := rxChecked_next h'
    exact ⟨by simp [decodeWriteOp, finishDecode, hbytes], fun hne => absurd rfl hne⟩
  · obtain ⟨hresp, hcrc⟩ := read_result_congr hstrict hbytes (rxChecked_next h).2 (rxChecked_next h').2
    exact ⟨hresp, fun _ => hcrc⟩
  · obtain ⟨hresp, hcrc⟩ := read_result_congr hstrict hbytes (rxChecked_next h).2 (rxChecked_next h').2
    exact ⟨hresp, fun _ => hcrc⟩

theorem crcUpd_congr {b : Byte} (hcrc : s.crc = s'.crc) (h : exec (.crcUpd b) s = .next t)
    (h' : exec (.crcUpd b) s' = .next t') : t.crc = t'.crc := by
  cases h; cases h'
  rw [respond_crc, respond_crc, hcrc]

theorem crcGet_congr (hcrc : s.crc = s'.crc) (h : exec .crcGet s = .next t) (h' : exec .crcGet s' = .next t') :
    t.lastResponse = t'.lastResponse := by
  cases h; cases h'
  rw [lastResponse_respond, lastResponse_respond, hcrc]

end TwoStates

/-- Settles O52, one lemma for each family of instructions. -/
theorem resultsDependOnlyOnWhatWasLoaded : Obligations.ResultsDependOnlyOnWhatWasLoaded := by
  intro s s' t t' hcfg
  refine ⟨fun _ => map_result_congr hcfg, fun _ => build_result_congr hcfg, fun k htxv hbytes h h' => ?_,
    fun _ => decode_result_congr, fun _ => crcUpd_congr, crcGet_congr⟩
  rw [lastResponse_txRd h, lastResponse_txRd h', htxv, hbytes]

end Sys2Proof.Machine
end

section
/-! SUPPORT. Family 30_encoding.md: the decoder and the encoder undo each other (R82, R92), and from that the patterns under their masks, the
illegal command words (R94) and the shape of a built frame. -/

namespace Sys2Proof

open Machine

/-! ### Decoder and encoder undo each other -/

theorem decode_packCommand (op : BitVec 4) (rsv kind : BitVec 2) (dev ch arg : Byte) :
    decode (.cw32 (packCommand op rsv kind dev ch arg)) = decodeFields op rsv kind dev ch arg :=
  decodeCommand_pack op rsv kind dev ch arg

/-- Settles O37: the decoder reads back the fields the encoder packed. -/
theorem decodeOfEncodeIsIdentity : Obligations.DecodeOfEncodeIsIdentity := by
  intro i
  cases i with
  | frameRlyOn | frameRlyOff | frameDinRd | frameOstRd => simp [encode, decode_packFrame, decodeFrameFields]
  | _ => simp [encode, decode_packCommand, decodeFields]

/-- One row of the decoder: either it is the row that answered, or a later one is. -/
theorem row_or_later {c : Prop} [Decidable c] {d : Decoded} {i j : Instr} (h : (if c then .instr j else d) = .instr i) :
    (c ∧ j = i) ∨ d = .instr i := by
  split at h
  · next hc => exact .inl ⟨hc, Decoded.instr.inj h⟩
  · exact .inr h

theorem byte_of_index {b : Byte} (h : b.extractLsb' 3 5 = 0) : 0#5 ++ b.extractLsb' 0 3 = b :=
  (congrArg (· ++ b.extractLsb' 0 3) h.symm).trans (BitVec.extractLsb'_append_extractLsb' (w := 5) (len := 3))

theorem byte_of_modeBit {b : Byte} (h : b.extractLsb' 1 7 = 0) : 0#7 ++ b.extractLsb' 0 1 = b :=
  (congrArg (· ++ b.extractLsb' 0 1) h.symm).trans (BitVec.extractLsb'_append_extractLsb' (w := 7) (len := 1))

/-- The reserved bits come first: a word that decodes has passed their check. -/
theorem later_of_reject {c : Prop} [Decidable c] {d : Decoded} {i : Instr} {r : Reject}
    (h : (if c then .reject r else d) = .instr i) : ¬ c ∧ d = .instr i := by
  split at h
  · cases h
  · next hc => exact ⟨hc, h⟩

/-- The rows in the decoder's order: the condition of each row fixes the fields to what the encoder packs. -/
theorem encode_of_decodeFields {op : BitVec 4} {rsv kind : BitVec 2} {dev ch arg : Byte} {i : Instr}
    (h : decodeFields op rsv kind dev ch arg = .instr i) : encode i = .cw32 (packCommand op rsv kind dev ch arg) := by
  unfold decodeFields at h
  obtain ⟨hrsv, h⟩ := later_of_reject h
  obtain rfl := not_not.1 hrsv
  obtain ⟨⟨rfl, rfl, rfl, rfl, rfl⟩, rfl⟩ | h := row_or_later h
  · rfl
  obtain ⟨⟨rfl, rfl, rfl, rfl⟩, rfl⟩ | h := row_or_later h
  · rfl
  obtain ⟨⟨rfl, rfl, rfl, rfl, rfl⟩, rfl⟩ | h := row_or_later h
  · rfl
  obtain ⟨⟨rfl, rfl, rfl⟩, rfl⟩ | h := row_or_later h
  · rfl
  obtain ⟨⟨rfl, rfl, rfl, rfl⟩, rfl⟩ | h := row_or_later h
  · rfl
  obtain ⟨⟨rfl, rfl, rfl, rfl⟩, rfl⟩ | h := row_or_later h
  · rfl
  obtain ⟨⟨rfl, rfl⟩, rfl⟩ | h := row_or_later h
  · rfl
  obtain ⟨⟨rfl, rfl, rfl⟩, rfl⟩ | h := row_or_later h
  · rfl
  obtain ⟨⟨rfl, rfl, rfl⟩, rfl⟩ | h := row_or_later h
  · rfl
  obtain ⟨⟨rfl, rfl, rfl, rfl, harg⟩, rfl⟩ | h := row_or_later h
  · simp only [encode, byte_of_index harg]
  obtain ⟨⟨rfl, rfl, rfl, rfl, rfl⟩, rfl⟩ | h := row_or_later h
  · rfl
  obtain ⟨⟨rfl, rfl, rfl, rfl⟩, rfl⟩ | h := row_or_later h
  · rfl
  obtain ⟨⟨rfl, rfl, rfl, rfl, rfl⟩, rfl⟩ | h := row_or_later h
  · rfl
  obtain ⟨⟨rfl, rfl, rfl, rfl, rfl⟩, rfl⟩ | h := row_or_later h
  · rfl
  obtain ⟨⟨rfl, rfl, rfl, rfl, rfl⟩, rfl⟩ | h := row_or_later h
  · rfl
  obtain ⟨⟨rfl, rfl, rfl, rfl, harg⟩, rfl⟩ | h := row_or_later h
  · simp only [encode, byte_of_modeBit harg]
  obtain ⟨⟨rfl, rfl, rfl, rfl, rfl⟩, rfl⟩ | h := row_or_later h
  · rfl
  cases h

theorem encode_of_decodeFrameFields {dev fc addrHi : Byte} {addrTop n : BitVec 4} {dataHi dataLo lo hi : Byte} {i : Instr}
    (h : decodeFrameFields dev fc addrHi addrTop n dataHi dataLo lo hi = .instr i) :
    encode i = .rqf64 (packFrame dev fc addrHi (addrTop ++ n) dataHi dataLo lo hi) := by
  unfold decodeFrameFields at h
  obtain ⟨⟨rfl, rfl, rfl, rfl, rfl⟩, rfl⟩ | h := row_or_later h
  · rfl
  obtain ⟨⟨rfl, rfl, rfl, rfl, rfl⟩, rfl⟩ | h := row_or_later h
  · rfl
  obtain ⟨⟨rfl, rfl, rfl, rfl, rfl⟩, rfl⟩ | h := row_or_later h
  · rfl
  obtain ⟨⟨rfl, rfl, rfl, rfl, rfl⟩, rfl⟩ | h := row_or_later h
  · rfl
  cases h

/-- Settles O38: the row that answered fixes the fields, and a word is the packing of its fields. -/
theorem encodeOfDecodeIsIdentity : Obligations.EncodeOfDecodeIsIdentity := by
  intro w i h
  cases w with
  | cw32 w => exact (encode_of_decodeFields h).trans (congrArg Wire.cw32 (packCommand_fields w))
  | rqf64 f =>
    have henc := encode_of_decodeFrameFields h
    rw [byte_nibbles] at henc
    exact henc.trans (congrArg Wire.rqf64 (packFrame_bytes f))

theorem decode_eq_instr_iff {w : Wire} {i : Instr} : decode w = .instr i ↔ encode i = w :=
  ⟨encodeOfDecodeIsIdentity w i, fun h => h ▸ decodeOfEncodeIsIdentity i⟩

/-! ### The rows under their masks -/

theorem eq_packCommand_iff {w : CmdWord} {op : BitVec 4} {rsv kind : BitVec 2} {dev ch arg : Byte} :
    w = packCommand op rsv kind dev ch arg ↔
      opField w = op ∧ rsvField w = rsv ∧ kindField w = kind ∧ devField w = dev ∧ chField w = ch ∧ argField w = arg := by
  constructor
  · rintro rfl; simp
  · rintro ⟨rfl, rfl, rfl, rfl, rfl, rfl⟩; exact (packCommand_fields w).symm

theorem eq_packFrame_iff {f : FrameWord} {b0 b1 b2 b3 b4 b5 b6 b7 : Byte} :
    f = packFrame b0 b1 b2 b3 b4 b5 b6 b7 ↔
      frameByte f 0 = b0 ∧ frameByte f 1 = b1 ∧ frameByte f 2 = b2 ∧ frameByte f 3 = b3 ∧
      frameByte f 4 = b4 ∧ frameByte f 5 = b5 ∧ frameByte f 6 = b6 ∧ frameByte f 7 = b7 := by
  constructor
  · rintro rfl; simp
  · rintro ⟨rfl, rfl, rfl, rfl, rfl, rfl, rfl, rfl⟩; exact (packFrame_bytes f).symm

section
variable (v w : CmdWord)

@[simp] theorem opField_and : opField (v &&& w) = opField v &&& opField w := BitVec.extractLsb'_and
@[simp] theorem rsvField_and : rsvField (v &&& w) = rsvField v &&& rsvField w := BitVec.extractLsb'_and
@[simp] theorem kindField_and : kindField (v &&& w) = kindField v &&& kindField w := BitVec.extractLsb'_and
@[simp] theorem devField_and : devField (v &&& w) = devField v &&& devField w := BitVec.extractLsb'_and
@[simp] theorem chField_and : chField (v &&& w) = chField v &&& chField w := BitVec.extractLsb'_and
@[simp] theorem argField_and : argField (v &&& w) = argField v &&& argField w := BitVec.extractLsb'_and

end

theorem frameByte_and (f g : FrameWord) (k : Nat) : frameByte (f &&& g) k = frameByte f k &&& frameByte g k :=
  BitVec.extractLsb'_and

/-- `w & mask = match`, field by field: each field of the word under the mask's field. -/
theorem masked_command_iff {w : CmdWord} {op : BitVec 4} {kind : BitVec 2} {mdev mch marg : Byte} :
    w &&& packCommand 0xF 3 3 mdev mch marg = packCommand op 0 kind 0 0 0 ↔
      opField w = op ∧ rsvField w = 0 ∧ kindField w = kind ∧
      devField w &&& mdev = 0 ∧ chField w &&& mch = 0 ∧ argField w &&& marg = 0 := by
  have hop (x : BitVec 4) : x &&& 0xF = x := BitVec.and_allOnes
  have hpair (x : BitVec 2) : x &&& 3 = x := BitVec.and_allOnes
  simp only [eq_packCommand_iff, opField_and, rsvField_and, kindField_and, devField_and, chField_and, argField_and, opField_pack,
    rsvField_pack, kindField_pack, devField_pack, chField_pack, argField_pack, hop, hpair]

/-- How a row of R82 treats an 8-bit field `b`: that the field holds what the encoder writes there, `operand`, is that its bits under the
row's mask are 0 (the match has operand bits 0 in every row). -/
def Slot (b operand mask : Byte) : Prop := b = operand ↔ b &&& mask = 0

theorem Slot.free (b : Byte) : Slot b b 0 := by simp [Slot]

theorem Slot.zero (b : Byte) : Slot b 0 0xFF := by
  rw [Slot, show b &&& 0xFF = b from BitVec.and_allOnes]

theorem argField_low (w : CmdWord) {n : Nat} (hn : n ≤ 8) : (argField w).extractLsb' 0 n = w.extractLsb' 0 n :=
  BitVec.extractLsb'_extractLsb'_of_le (by omega)

theorem Slot.index (w : CmdWord) : Slot (argField w) (0#5 ++ w.extractLsb' 0 3) 0xF8 := by
  have hbyte : ∀ b : Byte, Slot b (0#5 ++ b.extractLsb' 0 3) 0xF8 := by unfold Slot; decide +kernel
  exact argField_low w (n := 3) (by decide) ▸ hbyte (argField w)

theorem Slot.modeBit (w : CmdWord) : Slot (argField w) (0#7 ++ w.extractLsb' 0 1) 0xFE := by
  have hbyte : ∀ b : Byte, Slot b (0#7 ++ b.extractLsb' 0 1) 0xFE := by unfold Slot; decide +kernel
  exact argField_low w (n := 1) (by decide) ▸ hbyte (argField w)

/-- One row of R82, from the treatment of its DEV, CH and ARG fields; OP, RSV and KIND are under the mask in every row. -/
theorem command_row {w mask pat : CmdWord} {i : Instr} {op : BitVec 4} {kind : BitVec 2} {dev ch arg mdev mch marg : Byte}
    (henc : encode i = .cw32 (packCommand op 0 kind dev ch arg))
    (hdev : Slot (devField w) dev mdev) (hch : Slot (chField w) ch mch) (harg : Slot (argField w) arg marg)
    (hmask : mask = packCommand 0xF 3 3 mdev mch marg) (hpat : pat = packCommand op 0 kind 0 0 0) :
    decode (.cw32 w) = .instr i ↔ w &&& mask = pat := by
  rw [hmask, hpat, masked_command_iff, decode_eq_instr_iff, henc, Wire.cw32.injEq, eq_comm, eq_packCommand_iff]
  exact and_congr_right' (and_congr_right' (and_congr_right' (and_congr hdev (and_congr hch harg))))

/-- Settles O35, row by row of the table: what each row does with DEV, CH and ARG. -/
theorem commandPatternsDecode : Obligations.CommandPatternsDecode := fun _ =>
  ⟨command_row rfl (.zero _) (.zero _) (.zero _) rfl rfl,
   command_row rfl (.zero _) (.zero _) (.free _) rfl rfl,
   command_row rfl (.zero _) (.zero _) (.zero _) rfl rfl,
   command_row rfl (.zero _) (.free _) (.free _) rfl rfl,
   command_row rfl (.zero _) (.free _) (.zero _) rfl rfl,
   command_row rfl (.zero _) (.free _) (.zero _) rfl rfl,
   command_row rfl (.free _) (.free _) (.free _) rfl rfl,
   command_row rfl (.free _) (.free _) (.zero _) rfl rfl,
   command_row rfl (.free _) (.free _) (.zero _) rfl rfl,
   command_row rfl (.zero _) (.zero _) (.index _) rfl rfl,
   command_row rfl (.zero _) (.zero _) (.zero _) rfl rfl,
   command_row rfl (.zero _) (.zero _) (.free _) rfl rfl,
   command_row rfl (.zero _) (.zero _) (.zero _) rfl rfl,
   command_row rfl (.zero _) (.zero _) (.zero _) rfl rfl,
   command_row rfl (.zero _) (.zero _) (.zero _) rfl rfl,
   command_row rfl (.zero _) (.zero _) (.modeBit _) rfl rfl,
   command_row rfl (.zero _) (.zero _) (.zero _) rfl rfl⟩

/-- The channel nibble of byte 3 stands in bits 35:32 of the frame word. -/
theorem frame_nibble (f : FrameWord) : (frameByte f 3).extractLsb' 0 4 = f.extractLsb' 32 4 := by
  refine BitVec.eq_of_getLsbD_eq fun i hi => ?_
  simp only [frameByte, BitVec.getLsbD_extractLsb']
  interval_cases i <;> simp

/-- R92's mask over byte 3 fixes its high nibble and says nothing of the low one. -/
theorem masked_high_nibble_iff : ∀ (top : BitVec 4) (b : Byte), b = top ++ b.extractLsb' 0 4 ↔ b &&& 0xF0 = top ++ 0#4 := by
  decide +kernel

theorem masked_frame_iff {f : FrameWord} {fc dataHi dataLo : Byte} {top : BitVec 4} :
    f &&& packFrame 0 0xFF 0xFF 0xF0 0xFF 0xFF 0 0 = packFrame 0 fc 0 (top ++ 0#4) dataHi dataLo 0 0 ↔
      frameByte f 1 = fc ∧ frameByte f 2 = 0 ∧ frameByte f 3 &&& 0xF0 = top ++ 0#4 ∧
      frameByte f 4 = dataHi ∧ frameByte f 5 = dataLo := by
  have hall (x : Byte) : x &&& 0xFF = x := BitVec.and_allOnes
  have hnone (x : Byte) : x &&& 0 = 0 := BitVec.and_zero
  simp only [eq_packFrame_iff, frameByte_and, frameByte_pack0, frameByte_pack1, frameByte_pack2, frameByte_pack3, frameByte_pack4,
    frameByte_pack5, frameByte_pack6, frameByte_pack7, hall, hnone, true_and, and_true]

/-- One row of R92; the four rows share one mask. -/
theorem frame_row {f pat : FrameWord} {i : Instr} {fc dataHi dataLo : Byte} {top : BitVec 4}
    (henc : encode i = .rqf64 (packFrame (frameByte f 0) fc 0 (top ++ f.extractLsb' 32 4) dataHi dataLo (frameByte f 6) (frameByte f 7)))
    (hpat : pat = packFrame 0 fc 0 (top ++ 0#4) dataHi dataLo 0 0) :
    decode (.rqf64 f) = .instr i ↔ f &&& 0x00FFFFF0FFFF0000 = pat := by
  have hmask : (0x00FFFFF0FFFF0000 : FrameWord) = packFrame 0 0xFF 0xFF 0xF0 0xFF 0xFF 0 0 := rfl
  rw [hmask, hpat, masked_frame_iff, decode_eq_instr_iff, henc, Wire.rqf64.injEq, eq_comm, eq_packFrame_iff, ← frame_nibble,
    masked_high_nibble_iff]
  simp

/-- Settles O36, row by row of the table. -/
theorem framePatternsDecode : Obligations.FramePatternsDecode := fun _ =>
  ⟨frame_row rfl rfl, frame_row rfl rfl, frame_row rfl rfl, frame_row rfl rfl⟩

/-! ### The illegal command words (R94) -/

/-! The decoder with the reserved bits zero, one equation for each operation code. -/

section
variable (kind : BitVec 2) (dev ch arg : Byte)

theorem decodeFields_crcInit : decodeFields 0x1 0 kind dev ch arg =
    if kind = 0 ∧ dev = 0 ∧ ch = 0 ∧ arg = 0 then .instr .crcInit else .reject .illegalCommand := by simp [decodeFields]

theorem decodeFields_crcUpd : decodeFields 0x2 0 kind dev ch arg =
    if kind = 0 ∧ dev = 0 ∧ ch = 0 then .instr (.crcUpd arg) else .reject .illegalCommand := by simp [decodeFields]

theorem decodeFields_crcGet : decodeFields 0x3 0 kind dev ch arg =
    if kind = 0 ∧ dev = 0 ∧ ch = 0 ∧ arg = 0 then .instr .crcGet else .reject .illegalCommand := by simp [decodeFields]

theorem decodeFields_map : decodeFields 0x4 0 kind dev ch arg =
    if kind = 1 ∧ dev = 0 then .instr (.mapRly ch arg)
    else if kind = 2 ∧ dev = 0 ∧ arg = 0 then .instr (.mapDin ch)
    else if kind = 3 ∧ dev = 0 ∧ arg = 0 then .instr (.mapOst ch)
    else .reject .illegalCommand := by simp [decodeFields]

theorem decodeFields_bld : decodeFields 0x5 0 kind dev ch arg =
    if kind = 1 then .instr (.bldRly dev ch arg)
    else if kind = 2 ∧ arg = 0 then .instr (.bldDin dev ch)
    else if kind = 3 ∧ arg = 0 then .instr (.bldOst dev ch)
    else .reject .illegalCommand := by simp [decodeFields]

theorem decodeFields_txRd : decodeFields 0x6 0 kind dev ch arg =
    if kind = 0 ∧ dev = 0 ∧ ch = 0 ∧ arg.extractLsb' 3 5 = 0 then .instr (.txRd (arg.extractLsb' 0 3))
    else .reject .illegalCommand := by simp [decodeFields]

theorem decodeFields_rxClr : decodeFields 0x7 0 kind dev ch arg =
    if kind = 0 ∧ dev = 0 ∧ ch = 0 ∧ arg = 0 then .instr .rxClr else .reject .illegalCommand := by simp [decodeFields]

theorem decodeFields_rxPush : decodeFields 0x8 0 kind dev ch arg =
    if kind = 0 ∧ dev = 0 ∧ ch = 0 then .instr (.rxPush arg) else .reject .illegalCommand := by simp [decodeFields]

theorem decodeFields_dec : decodeFields 0x9 0 kind dev ch arg =
    if kind = 1 ∧ dev = 0 ∧ ch = 0 ∧ arg = 0 then .instr .decRly
    else if kind = 2 ∧ dev = 0 ∧ ch = 0 ∧ arg = 0 then .instr .decDin
    else if kind = 3 ∧ dev = 0 ∧ ch = 0 ∧ arg = 0 then .instr .decOst
    else .reject .illegalCommand := by simp [decodeFields]

theorem decodeFields_mode : decodeFields 0xA 0 kind dev ch arg =
    if kind = 0 ∧ dev = 0 ∧ ch = 0 ∧ arg.extractLsb' 1 7 = 0 then .instr (.mode (arg.extractLsb' 0 1))
    else .reject .illegalCommand := by simp [decodeFields]

theorem decodeFields_stat : decodeFields 0xB 0 kind dev ch arg =
    if kind = 0 ∧ dev = 0 ∧ ch = 0 ∧ arg = 0 then .instr .stat else .reject .illegalCommand := by simp [decodeFields]

theorem decodeFields_unassigned {op : BitVec 4} (h : op = 0 ∨ 0xC ≤ op.toNat) (rsv : BitVec 2) :
    decodeFields op rsv kind dev ch arg = .reject .illegalCommand := by
  have hne : op ∉ [1, 2, 3, 4, 5, 6, 7, 8, 9, 0xA, 0xB] := by revert op; decide
  simp only [List.mem_cons, not_or] at hne
  simp only [decodeFields, hne, false_and, if_false, ite_self]

theorem decodeFields_reserved {rsv : BitVec 2} (h : rsv ≠ 0) (op : BitVec 4) :
    decodeFields op rsv kind dev ch arg = .reject .illegalCommand := if_pos h

end

/-- R94's list, on the six fields. -/
def IllegalFields (op : BitVec 4) (rsv kind : BitVec 2) (dev ch arg : Byte) : Prop :=
  (op = 0 ∨ 0xC ≤ op.toNat) ∨
  rsv ≠ 0 ∨
  (kind = 0 ∧ op ∈ [0x4, 0x5, 0x9]) ∨
  (kind ≠ 0 ∧ op ∉ [0x4, 0x5, 0x9]) ∨
  (dev ≠ 0 ∧ op ≠ 0x5) ∨
  (ch ≠ 0 ∧ op ∉ [0x4, 0x5]) ∨
  (arg ≠ 0 ∧ (op ∈ [0x1, 0x3, 0x7, 0x9, 0xB] ∨ (op ∈ [0x4, 0x5] ∧ kind ≠ 1))) ∨
  (arg.extractLsb' 3 5 ≠ 0 ∧ op = 0x6) ∨
  (arg.extractLsb' 1 7 ≠ 0 ∧ op = 0xA)

theorem op_cases : ∀ op : BitVec 4, (op = 0 ∨ 0xC ≤ op.toNat) ∨
    op = 1 ∨ op = 2 ∨ op = 3 ∨ op = 4 ∨ op = 5 ∨ op = 6 ∨ op = 7 ∨ op = 8 ∨ op = 9 ∨ op = 0xA ∨ op = 0xB := by decide

theorem kind_cases : ∀ kind : BitVec 2, kind = 0 ∨ kind = 1 ∨ kind = 2 ∨ kind = 3 := by decide

theorem decodeFields_eq_illegal_iff (op : BitVec 4) (rsv kind : BitVec 2) (dev ch arg : Byte) :
    decodeFields op rsv kind dev ch arg = .reject .illegalCommand ↔ IllegalFields op rsv kind dev ch arg := by
  by_cases hrsv : rsv = 0
  case neg => exact iff_of_true (decodeFields_reserved _ _ _ _ hrsv _) (.inr (.inl hrsv))
  subst hrsv
  obtain h | rfl | rfl | rfl | rfl | rfl | rfl | rfl | rfl | rfl | rfl | rfl := op_cases op
  · exact iff_of_true (decodeFields_unassigned _ _ _ _ h _) (.inl h)
  · rw [decodeFields_crcInit]; simp [IllegalFields, -not_and, not_and_or]
  · rw [decodeFields_crcUpd]; simp [IllegalFields, -not_and, not_and_or]
  · rw [decodeFields_crcGet]; simp [IllegalFields, -not_and, not_and_or]
  · rw [decodeFields_map]
    obtain rfl | rfl | rfl | rfl := kind_cases kind <;> simp [IllegalFields, -not_and, not_and_or]
  · rw [decodeFields_bld]
    obtain rfl | rfl | rfl | rfl := kind_cases kind <;> simp [IllegalFields, -not_and]
  · rw [decodeFields_txRd]; simp [IllegalFields, -not_and, not_and_or]
  · rw [decodeFields_rxClr]; simp [IllegalFields, -not_and, not_and_or]
  · rw [decodeFields_rxPush]; simp [IllegalFields, -not_and, not_and_or]
  · rw [decodeFields_dec]
    obtain rfl | rfl | rfl | rfl := kind_cases kind <;> simp [IllegalFields, -not_and, not_and_or]
  · rw [decodeFields_mode]; simp [IllegalFields, -not_and, not_and_or]
  · rw [decodeFields_stat]; simp [IllegalFields, -not_and, not_and_or]

/-- Settles O39: the decoder's equations against the list, one operation code after the other. -/
theorem illegalWordsAreExactlyThese : Obligations.IllegalWordsAreExactlyThese := fun w =>
  decodeFields_eq_illegal_iff (opField w) (rsvField w) (kindField w) (devField w) (chField w) (argField w)

/-! ### The shape of a built frame (R92) and its residue (43_encoder.md R163(f)) -/

theorem crcByte_loByte (c : Half) : crcByte c (loByte c) = (hiByte c).setWidth 16 := by
  have hhigh : c ^^^ (loByte c).setWidth 16 = hiByte c ++ 0#8 := by
    refine BitVec.eq_of_getLsbD_eq fun i hi => ?_
    simp only [hiByte, loByte, BitVec.getLsbD_xor, BitVec.getLsbD_setWidth, BitVec.getLsbD_append, BitVec.getLsbD_extractLsb']
    interval_cases i <;> simp
  rw [crcByte, hhigh, crcBits_of_high]

theorem crcByte_own_byte (b : Byte) : crcByte (b.setWidth 16) b = 0 := by
  rw [crcByte, BitVec.xor_self]
  exact crcBits_zero 8

/-- The two CRC bytes bring the register to 0, the low byte first. -/
theorem crc16_append_crc16Bytes (u : List Byte) : crc16 (u ++ crc16Bytes u) = 0 := by
  calc crc16 (u ++ crc16Bytes u)
      = crcByte (crcByte (crc16 u) (loByte (crc16 u))) (hiByte (crc16 u)) := List.foldl_append
    _ = 0 := by rw [crcByte_loByte, crcByte_own_byte]

/-- Eight bytes shifted in one after the other, byte 0 first, are the frame as one number (R90). -/
theorem foldl_shift_eq_packFrame (b0 b1 b2 b3 b4 b5 b6 b7 : Byte) :
    [b0, b1, b2, b3, b4, b5, b6, b7].foldl (fun (w : FrameWord) b => (w <<< 8) ||| b.setWidth 64) 0 =
      packFrame b0 b1 b2 b3 b4 b5 b6 b7 := by
  refine BitVec.eq_of_getLsbD_eq fun i hi => ?_
  simp only [List.foldl_cons, List.foldl_nil, packFrame, BitVec.getLsbD_or, BitVec.getLsbD_shiftLeft, BitVec.getLsbD_setWidth,
    BitVec.getLsbD_append]
  interval_cases i <;> simp

theorem decode_buildFrame (dev : Byte) (m : Mapping) :
    decode (.rqf64 ((buildFrame dev m).foldl (fun w b => (w <<< 8) ||| b.setWidth 64) 0)) =
      decodeFrameFields dev m.fc (hiByte m.addr) ((loByte m.addr).extractLsb' 4 4) ((loByte m.addr).extractLsb' 0 4)
        (hiByte m.data) (loByte m.data) ((buildFrame dev m).getD 6 0) ((buildFrame dev m).getD 7 0) :=
  (congrArg (decode ∘ Wire.rqf64) (foldl_shift_eq_packFrame ..)).trans (decode_packFrame ..)

/-- The two data fields, each with the action it stands for (30_encoding.md R84). -/
theorem actionData_on_or_off {act : Byte} {data : Half} (h : actionData act = some data) :
    (act = 0x01 ∧ hiByte data = 0x01 ∨ act ≠ 0x01 ∧ hiByte data = 0x02) ∧ loByte data = 0 := by
  unfold actionData at h
  split at h
  · next hon => obtain rfl := Option.some.inj h; exact ⟨.inl ⟨hon, by decide⟩, by decide⟩
  · next hon =>
    split at h
    · obtain rfl := Option.some.inj h; exact ⟨.inr ⟨hon, by decide⟩, by decide⟩
    · cases h

theorem decode_built_relay {dev ch act : Byte} {m : Mapping} (h : mapRelay ch act = .ok m) :
    decode (.rqf64 ((buildFrame dev m).foldl (fun w b => (w <<< 8) ||| b.setWidth 64) 0)) =
      .instr (if act = 0x01
        then .frameRlyOn dev (ch.setWidth 4) ((buildFrame dev m).getD 6 0) ((buildFrame dev m).getD 7 0)
        else .frameRlyOff dev (ch.setWidth 4) ((buildFrame dev m).getD 6 0) ((buildFrame dev m).getD 7 0)) := by
  rw [decode_buildFrame]
  obtain ⟨hch, data, hdata, rfl⟩ := mapRelay_ok h
  obtain ⟨haddrHi, haddrLo⟩ := relayAddr_bytes ch hch
  rw [haddrHi, haddrLo, nibble_hi, nibble_lo]
  obtain ⟨⟨hact, hdataHi⟩ | ⟨hact, hdataHi⟩, hdataLo⟩ := actionData_on_or_off hdata
  · rw [if_pos hact]; simp [decodeFrameFields, hdataHi, hdataLo]
  · rw [if_neg hact]; simp [decodeFrameFields, hdataHi, hdataLo]

theorem decode_built_input {dev ch : Byte} {m : Mapping} (h : mapInput ch = .ok m) :
    decode (.rqf64 ((buildFrame dev m).foldl (fun w b => (w <<< 8) ||| b.setWidth 64) 0)) =
      .instr (.frameDinRd dev (ch.setWidth 4) ((buildFrame dev m).getD 6 0) ((buildFrame dev m).getD 7 0)) := by
  rw [decode_buildFrame]
  obtain ⟨hch, rfl⟩ := mapInput_ok h
  obtain ⟨haddrHi, haddrLo⟩ := inputAddr_bytes ch hch
  simp only [haddrHi, haddrLo, nibble_hi, nibble_lo, readData_bytes]
  rfl

theorem decode_built_ostat {o : BitVec 1} {dev ch : Byte} {m : Mapping} (h : mapOstat o ch = .ok m) :
    decode (.rqf64 ((buildFrame dev m).foldl (fun w b => (w <<< 8) ||| b.setWidth 64) 0)) =
      .instr (.frameOstRd dev (ch.setWidth 4 + o.setWidth 4) ((buildFrame dev m).getD 6 0) ((buildFrame dev m).getD 7 0)) := by
  rw [decode_buildFrame]
  obtain ⟨hch, rfl⟩ := mapOstat_ok h
  obtain ⟨haddrHi, haddrLo, -⟩ := ostatAddr_bytes o ch hch
  simp only [haddrHi, haddrLo, nibble_hi, nibble_lo, readData_bytes]
  rfl

/-- Settles O20: the decoder reads a built frame field by field, and its CRC bytes bring the register to 0. -/
theorem builtFrameHasItsShape : Obligations.BuiltFrameHasItsShape := fun dev _ _ _ _ =>
  ⟨fun _ _ => decode_built_relay, fun _ => decode_built_input, fun _ => decode_built_ostat,
    fun m => crc16_append_crc16Bytes (buildBody dev m)⟩

end Sys2Proof
end

section
/-! SUPPORT. Family 41_crc.md: the operations of the CRC generator with their words (R124 to R127), the table form of the byte step
(R130(e)), its fixed points (R125) and the bijections (R130(f)). -/

namespace Sys2Proof

open Machine

/-! ### The words of the three operations -/

/-- Four operation codes take no operand and no kind: every word but the one with all other fields 0 is illegal (R94). -/
theorem decode_illegal_of_no_operand {w : CmdWord} (hop : opField w ∈ [0x1, 0x3, 0x7, 0xB])
    (hne : w ≠ packCommand (opField w) 0 0 0 0 0) : decode (.cw32 w) = .reject .illegalCommand := by
  have hops : opField w ∉ [0x4, 0x5, 0x9] ∧ opField w ≠ 0x5 ∧ opField w ∉ [0x4, 0x5] ∧ opField w ∈ [0x1, 0x3, 0x7, 0x9, 0xB] := by
    generalize opField w = op at hop
    revert op
    decide
  obtain ⟨hkind, hdev, hch, harg⟩ := hops
  have hfield : rsvField w ≠ 0 ∨ kindField w ≠ 0 ∨ devField w ≠ 0 ∨ chField w ≠ 0 ∨ argField w ≠ 0 := by
    by_contra! hzero
    exact hne (eq_packCommand_iff.2 ⟨rfl, hzero⟩)
  rw [illegalWordsAreExactlyThese w]
  obtain h | h | h | h | h := hfield
  · exact .inr (.inl h)
  · exact .inr (.inr (.inr (.inl ⟨h, hkind⟩)))
  · exact .inr (.inr (.inr (.inr (.inl ⟨h, hdev⟩))))
  · exact .inr (.inr (.inr (.inr (.inr (.inl ⟨h, hch⟩)))))
  · exact .inr (.inr (.inr (.inr (.inr (.inr (.inl ⟨h, .inl harg⟩))))))

/-- The word 0x200000bb. -/
theorem crcUpd_word : ∀ b : Byte, encode (.crcUpd b) = .cw32 (0x20000000 + b.setWidth 32) := by decide +kernel

/-! ### What the three operations do -/

theorem exec_crcInit (s : State) :
    exec .crcInit s = .next { s with crc := 0xFFFF, responses := s.responses ++ [0] } := rfl

theorem exec_crcUpd (b : Byte) (s : State) :
    exec (.crcUpd b) s = .next { s with crc := crcByte s.crc b, responses := s.responses ++ [0] } := rfl

theorem exec_crcGet (s : State) :
    exec .crcGet s = .next { s with responses := s.responses ++ [s.crc.setWidth 64] } := by
  have hword : packResponse statusOk (crcPayload s.crc) = s.crc.setWidth 64 := by
    rw [packResponse_ok, crcPayload, BitVec.setWidth_setWidth (by decide)]
  rw [← hword]
  rfl

/-- Settles O1: the operation's equation, its word read back, and its operation code takes no operand. -/
theorem crcInitLoadsAllOnes : Obligations.CrcInitLoadsAllOnes :=
  ⟨exec_crcInit, rfl, fun w hop hne => decode_illegal_of_no_operand (by simp [hop]) (by rwa [hop])⟩

/-- Settles O3: the operation's equation, its word read back, and its operation code takes no operand. -/
theorem crcGetReturnsRegister : Obligations.CrcGetReturnsRegister :=
  ⟨exec_crcGet, rfl, fun w hop hne => decode_illegal_of_no_operand (by simp [hop]) (by rwa [hop])⟩

/-- Settles O4: the steps are the rules' pseudocode, and the nine values are computed. -/
theorem crcStepsFollowTheRules : Obligations.CrcStepsFollowTheRules :=
  ⟨fun _ => rfl, fun _ _ => rfl, by decide⟩

/-- Settles O5: the four values, computed. -/
theorem crcGoldenVectors : Obligations.CrcGoldenVectors := by
  unfold Obligations.CrcGoldenVectors
  decide +kernel

/-! ### The sequence CRC.INIT, CRC.UPD of each byte, CRC.GET (R127) -/

theorem updateBytes_eq (bytes : List Byte) (s : State) :
    updateBytes bytes s = .next { s with
      crc := bytes.foldl crcByte s.crc
      responses := s.responses ++ List.replicate bytes.length 0 } := by
  induction bytes generalizing s with
  | nil => simp [updateBytes]
  | cons b bytes ih => simp [updateBytes, exec_crcUpd, ih, List.replicate_succ]

theorem crcGet_result (c : Half) : (payloadField (c.setWidth 64)).setWidth 16 = c := by
  refine BitVec.eq_of_getLsbD_eq fun i hi => ?_
  simp only [payloadField, BitVec.getLsbD_setWidth, BitVec.getLsbD_extractLsb']
  interval_cases i <;> simp

/-- Settles O6: the updates fold the byte step over the register CRC.INIT loaded, and CRC.GET reads it back. -/
theorem crcSequenceComputesCrc16 : Obligations.CrcSequenceComputesCrc16 := by
  intro bytes s
  have hget (t : State) : issue .crcGet t =
      .next ({ t with responses := t.responses ++ [t.crc.setWidth 64] }, t.crc.setWidth 64) := by
    rw [issue_of_exec (exec_crcGet t), State.lastResponse, List.getLastD_concat]
  simp [crc16Command, exec_crcInit, updateBytes_eq, hget, crcGet_result, crc16, crcStart, List.replicate_succ]

/-! ### The laws of the steps (R130) -/

/-- Settles O7: `crc16` is a fold of the byte step, and the residue is the lemma on the two CRC bytes. -/
theorem crcStreamingAndResidue : Obligations.CrcStreamingAndResidue :=
  ⟨rfl, fun _ _ => List.foldl_append, crc16_append_crc16Bytes⟩

/-- The byte step by the register's two bytes: the high byte is shifted down, the low byte and `b` go through the table. -/
theorem crcByte_eq_table (c : Half) (b : Byte) : crcByte c b = (hiByte c).setWidth 16 ^^^ crcByte 0 (loByte c ^^^ b) := by
  have hsplit : c ^^^ b.setWidth 16 = (hiByte c ++ 0#8) ^^^ (0 ^^^ (loByte c ^^^ b).setWidth 16) := by
    refine BitVec.eq_of_getLsbD_eq fun i hi => ?_
    simp only [hiByte, loByte, BitVec.getLsbD_xor, BitVec.getLsbD_setWidth, BitVec.getLsbD_append, BitVec.getLsbD_extractLsb']
    interval_cases i <;> simp
  rw [crcByte, hsplit, crcBits_xor, crcBits_of_high]
  rfl

theorem hiByte_setWidth (c : Half) : (hiByte c).setWidth 16 = c >>> 8 := by
  refine BitVec.eq_of_getLsbD_eq fun i hi => ?_
  simp only [hiByte, BitVec.getLsbD_setWidth, BitVec.getLsbD_extractLsb', BitVec.getLsbD_ushiftRight]
  interval_cases i <;> simp

theorem loByte_eq_setWidth (c : Half) : loByte c = c.setWidth 8 := BitVec.setWidth_eq_extractLsb' (by decide) |>.symm

/-- Settles O8: the table form, with the two bytes written as a shift and a truncation. -/
theorem crcByteThroughTable : Obligations.CrcByteThroughTable := fun c b => by
  rw [crcByte_eq_table, hiByte_setWidth, loByte_eq_setWidth]

/-! ### The fixed points of byte 00 (R125) -/

/-- The high byte of a fixed point is that of the table entry of its low byte, since what is shifted down stays below it. -/
theorem hiByte_of_crcByte_fixed {c : Half} (h : crcByte c 0x00 = c) : hiByte c = hiByte (crcByte 0 (loByte c)) := by
  have hshift : hiByte ((hiByte c).setWidth 16) = 0 := by
    ext i hi
    simp [hiByte]
  have hxor (x y : Half) : hiByte (x ^^^ y) = hiByte x ^^^ hiByte y := BitVec.extractLsb'_xor
  calc hiByte c = hiByte (crcByte c 0x00) := by rw [h]
    _ = hiByte (crcByte 0 (loByte c)) := by
      rw [crcByte_eq_table, hxor, hshift]; simp

/-- Each low byte leaves one candidate, and two of the 256 are fixed points. -/
theorem table_candidate_fixed : ∀ lo : Byte, crcByte (hiByte (crcByte 0 lo) ++ lo) 0x00 = hiByte (crcByte 0 lo) ++ lo →
    hiByte (crcByte 0 lo) ++ lo = 0x0000#16 ∨ hiByte (crcByte 0 lo) ++ lo = 0xC001#16 := by decide +kernel

theorem crcByte_zero_fixed_iff (c : Half) : crcByte c 0x00 = c ↔ c = 0x0000 ∨ c = 0xC001 := by
  constructor
  · intro h
    have hc : hiByte (crcByte 0 (loByte c)) ++ loByte c = c := by rw [← hiByte_of_crcByte_fixed h, half_of_bytes]
    have hcand := table_candidate_fixed (loByte c)
    rw [hc] at hcand
    exact hcand h
  · rintro (rfl | rfl) <;> decide

/-- Settles O2: R94's list gives the illegal fields, the table the fixed points. -/
theorem crcUpdateAbsorbsOneByte : Obligations.CrcUpdateAbsorbsOneByte := by
  refine ⟨exec_crcUpd, fun b => decode_eq_instr_iff.2 (crcUpd_word b), fun w hop hfield => ?_, crcByte_zero_fixed_iff⟩
  rw [illegalWordsAreExactlyThese w, hop]
  obtain h | h | h | h := hfield
  · exact .inr (.inl h)
  · exact .inr (.inr (.inr (.inl ⟨h, by decide⟩)))
  · exact .inr (.inr (.inr (.inr (.inl ⟨h, by decide⟩))))
  · exact .inr (.inr (.inr (.inr (.inr (.inl ⟨h, by decide⟩)))))

/-! ### The steps are bijections (R130(f)) -/

/-- The bit shifted out can be read back in bit 15, which is 1 in CRC_POLY. -/
theorem crcBit_getLsbD_15 (c : Half) : (crcBit c).getLsbD 15 = c.getLsbD 0 := by
  unfold crcBit
  split
  · next h => rw [h, BitVec.getLsbD_xor, BitVec.getLsbD_ushiftRight]; simp [crcPoly]
  · next h => simpa using h

theorem crcBit_injective : Function.Injective crcBit := by
  intro c d h
  have hzero : c.getLsbD 0 = d.getLsbD 0 := by rw [← crcBit_getLsbD_15, h, crcBit_getLsbD_15]
  have hshift : c >>> 1 = d >>> 1 := by
    unfold crcBit at h
    rw [hzero] at h
    split at h
    · simpa using h
    · exact h
  refine BitVec.eq_of_getLsbD_eq fun i hi => ?_
  cases i with
  | zero => exact hzero
  | succ i => simpa [BitVec.getLsbD_ushiftRight, Nat.add_comm] using congrArg (·.getLsbD i) hshift

theorem crcBits_injective (n : Nat) : Function.Injective (crcBits n) := by
  induction n with
  | zero => exact fun _ _ h => h
  | succ n ih => exact ih.comp crcBit_injective

theorem crcByte_injective_register (b : Byte) : Function.Injective fun c => crcByte c b := by
  intro c d h
  have hxor : c ^^^ b.setWidth 16 = d ^^^ b.setWidth 16 := crcBits_injective 8 h
  simpa using hxor

theorem crcByte_injective_byte (c : Half) : Function.Injective (crcByte c) := by
  intro a b h
  have hxor : c ^^^ a.setWidth 16 = c ^^^ b.setWidth 16 := crcBits_injective 8 h
  have hwide : a.setWidth 16 = b.setWidth 16 := by simpa using hxor
  simpa using congrArg (BitVec.setWidth 8) hwide

theorem foldl_crcByte_injective (v : List Byte) : Function.Injective fun c => v.foldl crcByte c := by
  induction v with
  | nil => exact fun _ _ h => h
  | cons b v ih => exact ih.comp (crcByte_injective_register b)

/-- Settles O9: injective steps on finitely many values are bijective, and the bytes after the changed one keep the two registers apart. -/
theorem crcDetectsOneChangedByte : Obligations.CrcDetectsOneChangedByte := by
  refine ⟨Finite.injective_iff_bijective.1 crcBit_injective,
    fun b => Finite.injective_iff_bijective.1 (crcByte_injective_register b), fun u v a b hab h => ?_⟩
  have hfold : v.foldl crcByte (crcByte (crc16 u) a) = v.foldl crcByte (crcByte (crc16 u) b) := by
    simpa [crc16] using h
  exact hab (crcByte_injective_byte _ (foldl_crcByte_injective v hfold))

end Sys2Proof
end

section
/-! SUPPORT. Family 42_addrmap.md: the operations of the register-address mapper with their words (R145 to R147). -/

namespace Sys2Proof

open Machine

/-! ### Words as numbers -/

theorem toNat_append_eq_add {m n : Nat} (x : BitVec m) (y : BitVec n) : (x ++ y).toNat = x.toNat * 2 ^ n + y.toNat := by
  rw [BitVec.toNat_append, ← Nat.shiftLeft_add_eq_or_of_lt y.isLt, Nat.shiftLeft_eq]

/-- A command word from the values of its fields (30_encoding.md R81). -/
theorem packCommand_eq_ofNat (op : BitVec 4) (rsv kind : BitVec 2) (dev ch arg : Byte) :
    packCommand op rsv kind dev ch arg = BitVec.ofNat 32 (op.toNat * 0x10000000 + rsv.toNat * 0x4000000 +
      kind.toNat * 0x1000000 + dev.toNat * 0x10000 + ch.toNat * 0x100 + arg.toNat) := by
  refine BitVec.eq_of_toNat_eq ?_
  simp only [packCommand, toNat_append_eq_add, BitVec.toNat_ofNat]
  omega

/-- The response word of a mapping from the values of its fields (30_encoding.md R88). -/
theorem packResponse_mappingPayload (m : Mapping) :
    packResponse statusOk (mappingPayload m) =
      BitVec.ofNat 64 (m.fc.toNat * 0x100000000 + m.addr.toNat * 0x10000 + m.data.toNat) := by
  refine BitVec.eq_of_toNat_eq ?_
  simp only [packResponse_ok, mappingPayload, toNat_append_eq_add, BitVec.toNat_setWidth, BitVec.toNat_ofNat]
  omega

theorem zext16_toNat (v : Byte) : (zext16 v).toNat = v.toNat := BitVec.toNat_setWidth_of_le (by decide)

/-- The additions of the mapper do not wrap around (00_scope.md R14(a)). -/
theorem inputAddr_toNat (ch : Byte) : (0x0080#16 + zext16 ch).toNat = 0x80 + ch.toNat := by
  rw [BitVec.toNat_add, zext16_toNat, BitVec.toNat_ofNat]
  omega

theorem ostatAddr_toNat (offset : BitVec 1) (ch : Byte) :
    (zext16 ch + offset.setWidth 16).toNat = ch.toNat + offset.toNat := by
  rw [BitVec.toNat_add, zext16_toNat, BitVec.toNat_setWidth]
  omega

/-! ### What a MAP operation answers -/

section
variable {s : State} {ch : Byte} {r : RspWord}

theorem mapOp_ok {m : Mapping} {n : Nat} (h : m.fc.toNat * 0x100000000 + m.addr.toNat * 0x10000 + m.data.toNat = n) :
    mapOp (.ok m) s = s.deliver (BitVec.ofNat 64 n) := by
  rw [← h, ← packResponse_mappingPayload]
  rfl

theorem channelValid_iff : channelValid ch = true ↔ ¬ (ch.toNat < 1 ∨ 8 < ch.toNat) := by
  simp only [channelValid, Bool.and_eq_true, decide_eq_true_eq]
  omega

/-- Each of the three mappers checks the channel first (42_addrmap.md R144). -/
theorem mapOp_channelChecked {m : Except OpError Mapping} (h : mapOp m s = s.deliver r) :
    mapOp (if channelValid ch then m else .error .invalidChannel) s =
      s.deliver (if ch.toNat < 1 ∨ 8 < ch.toNat then 0x1000000000000000 else r) := by
  by_cases hch : ch.toNat < 1 ∨ 8 < ch.toNat
  · rw [if_neg (channelValid_iff.not_left.2 hch), if_pos hch]; rfl
  · rw [if_pos (channelValid_iff.2 hch), if_neg hch, h]

end

/-- The mapper's pseudocode (42_addrmap.md R141). -/
theorem mapRelay_eq (ch act : Byte) : mapRelay ch act =
    if channelValid ch then
      if act = 0x01 then .ok { fc := 0x06, addr := zext16 ch, data := 0x0100 }
      else if act = 0x02 then .ok { fc := 0x06, addr := zext16 ch, data := 0x0200 }
      else .error .invalidAction
    else .error .invalidChannel := by
  unfold mapRelay actionData
  split_ifs <;> rfl

theorem exec_mapRly (ch act : Byte) (s : State) :
    exec (.mapRly ch act) s = .next (s.deliver (
      if ch.toNat < 1 ∨ 8 < ch.toNat then 0x1000000000000000
      else if act = 0x01 then BitVec.ofNat 64 (0x0600000100 + ch.toNat * 0x10000)
      else if act = 0x02 then BitVec.ofNat 64 (0x0600000200 + ch.toNat * 0x10000)
      else 0x2000000000000000)) := by
  rw [exec, execMapRly, mapRelay_eq, mapOp_channelChecked]
  split_ifs
  · exact mapOp_ok (by simp only [zext16_toNat, BitVec.ofNat_eq_ofNat, BitVec.toNat_ofNat]; omega)
  · exact mapOp_ok (by simp only [zext16_toNat, BitVec.ofNat_eq_ofNat, BitVec.toNat_ofNat]; omega)
  · rfl

theorem exec_mapDin (ch : Byte) (s : State) :
    exec (.mapDin ch) s = .next (s.deliver (
      if ch.toNat < 1 ∨ 8 < ch.toNat then 0x1000000000000000
      else BitVec.ofNat 64 (0x0300000001 + (0x80 + ch.toNat) * 0x10000))) := by
  rw [exec, execMapDin, mapInput, mapOp_channelChecked]
  exact mapOp_ok (by simp only [inputAddr_toNat, BitVec.ofNat_eq_ofNat, BitVec.toNat_ofNat]; omega)

theorem exec_mapOst (ch : Byte) (s : State) :
    exec (.mapOst ch) s = .next (s.deliver (
      if ch.toNat < 1 ∨ 8 < ch.toNat then 0x1000000000000000
      else BitVec.ofNat 64 (0x0300000001 + (ch.toNat + s.cfg.ostatOffset.toNat) * 0x10000))) := by
  rw [exec, execMapOst, mapOstat, mapOp_channelChecked]
  exact mapOp_ok (by simp only [ostatAddr_toNat, BitVec.ofNat_eq_ofNat, BitVec.toNat_ofNat]; omega)

/-! ### The words of the three operations -/

/-- The word 0x4100ccaa. -/
theorem mapRly_word (ch act : Byte) :
    encode (.mapRly ch act) = .cw32 (BitVec.ofNat 32 (0x41000000 + ch.toNat * 0x100 + act.toNat)) := by
  rw [encode, packCommand_eq_ofNat]
  simp

/-- The word 0x4200cc00. -/
theorem mapDin_word (ch : Byte) : encode (.mapDin ch) = .cw32 (BitVec.ofNat 32 (0x42000000 + ch.toNat * 0x100)) := by
  rw [encode, packCommand_eq_ofNat]
  simp

/-- The word 0x4300cc00. -/
theorem mapOst_word (ch : Byte) : encode (.mapOst ch) = .cw32 (BitVec.ofNat 32 (0x43000000 + ch.toNat * 0x100)) := by
  rw [encode, packCommand_eq_ofNat]
  simp

/-- The fields a MAP word must leave 0: RSV, DEV and, but for MAP.RLY, ARG (R94). -/
theorem decode_illegal_of_map {w : CmdWord} (hop : opField w = 0x4)
    (hfield : rsvField w ≠ 0 ∨ devField w ≠ 0 ∨ (argField w ≠ 0 ∧ kindField w ≠ 1)) :
    decode (.cw32 w) = .reject .illegalCommand := by
  rw [illegalWordsAreExactlyThese w, hop]
  obtain h | h | ⟨harg, hkind⟩ := hfield
  · exact .inr (.inl h)
  · exact .inr (.inr (.inr (.inr (.inl ⟨h, by decide⟩))))
  · exact .inr (.inr (.inr (.inr (.inr (.inr (.inl ⟨harg, .inr ⟨by decide, hkind⟩⟩))))))

/-- Settles O10: the mapper's pseudocode under the channel check, its word read back, and R94's list. -/
theorem mapRelayResolves : Obligations.MapRelayResolves :=
  ⟨exec_mapRly, fun ch act => decode_eq_instr_iff.2 (mapRly_word ch act),
    fun _ hop _ hfield => decode_illegal_of_map hop (hfield.imp_right .inl)⟩

/-- Settles O11: the address as a sum that does not wrap around, its word read back, and R94's list. -/
theorem mapInputResolves : Obligations.MapInputResolves :=
  ⟨exec_mapDin, fun ch => decode_eq_instr_iff.2 (mapDin_word ch),
    fun _ hop hkind hfield => decode_illegal_of_map hop (hfield.imp_right (.imp_right (⟨·, by simp [hkind]⟩)))⟩

/-- Settles O12: the same for the address with OSTAT_OFFSET. -/
theorem mapOutputStatusResolves : Obligations.MapOutputStatusResolves :=
  ⟨exec_mapOst, fun ch => decode_eq_instr_iff.2 (mapOst_word ch),
    fun _ hop hkind hfield => decode_illegal_of_map hop (hfield.imp_right (.imp_right (⟨·, by simp [hkind]⟩)))⟩

end Sys2Proof
end

section
/-! SUPPORT. Family 43_encoder.md: the builds with good and with bad operands (R164 to R167, R169), TX.RD with its word (R168), and what a
built frame tells of its request (R163(e), R163(g)). -/

namespace Sys2Proof

open Machine

/-! ### The device address (R169) -/

theorem deviceInRange_iff {dev : Byte} : deviceInRange dev = true ↔ 1 ≤ dev.toNat ∧ dev.toNat ≤ 247 := by
  simp only [deviceInRange, Bool.and_eq_true, decide_eq_true_eq]

theorem buildChecked_of_outOfRange {dev : Byte} (h : dev.toNat = 0 ∨ 248 ≤ dev.toNat) (m : Except OpError Mapping) (s : State) :
    buildChecked dev m s = .refused .deviceOutOfRange :=
  if_neg fun hdev => by have := deviceInRange_iff.1 hdev; omega

/-- Settles O17: the device address is checked before the mapping is looked at. -/
theorem buildRefusesDeviceOutOfRange : Obligations.BuildRefusesDeviceOutOfRange := fun _ _ _ s hdev =>
  ⟨buildChecked_of_outOfRange hdev _ s, buildChecked_of_outOfRange hdev _ s, buildChecked_of_outOfRange hdev _ s⟩

/-! ### Builds with good operands (R164) -/

/-- The body of the frame goes into CRC, the body and its CRC bytes into TXF. -/
theorem buildChecked_ok {dev : Byte} {m : Mapping} {body : List Byte} {s : State} (hwf : s.txf.wf txfSize = true)
    (hdev : deviceInRange dev = true) (hbody : buildBody dev m = body) :
    ∃ txf : Memory,
      buildChecked dev (.ok m) s = .next { s with
        txf := txf
        txv := true
        crc := crc16 body
        responses := s.responses ++ [0] } ∧
      (List.range 8).map txf.read = body ++ crc16Bytes body ∧
      ∀ i, 8 ≤ i → txf.read i = s.txf.read i := by
  subst hbody
  refine ⟨s.txf.writeFrom 0 (buildFrame dev m), ?_, Memory.bytes_writeFrom hwf rfl, fun i hi => ?_⟩
  · rw [buildChecked_of_inRange hdev, ← frameCrc_buildFrame]
    rfl
  · rw [Memory.read_writeFrom hwf _ 0 Nat.le.refl, buildFrame_length, if_neg (by omega)]

/-! The low byte of each register address (42_addrmap.md R141 to R143). -/

section
variable (ch : Byte)

theorem loByte_zext16 : loByte (zext16 ch) = ch := by
  rw [loByte_eq_setWidth, zext16, BitVec.setWidth_setWidth_of_le _ (by decide), BitVec.setWidth_eq]

theorem loByte_inputAddr : loByte (0x0080 + zext16 ch) = 0x80 + ch := by
  rw [loByte_eq_setWidth, BitVec.setWidth_add _ _ (by decide), ← loByte_eq_setWidth (zext16 ch), loByte_zext16]
  rfl

theorem loByte_ostatAddr (offset : BitVec 1) : loByte (zext16 ch + offset.setWidth 16) = ch + offset.setWidth 8 := by
  rw [loByte_eq_setWidth, BitVec.setWidth_add _ _ (by decide), ← loByte_eq_setWidth (zext16 ch), loByte_zext16,
    BitVec.setWidth_setWidth_of_le _ (by decide)]

end

theorem channelValid_of_bounds {ch : Byte} (hlo : 1 ≤ ch.toNat) (hhi : ch.toNat ≤ 8) : channelValid ch = true :=
  channelValid_iff.2 (by omega)

section
variable (a b : Byte)

theorem hiByte_append : hiByte (a ++ b) = a := BitVec.extractLsb'_append_eq_left

theorem loByte_append : loByte (a ++ b) = b := BitVec.extractLsb'_append_eq_right

end

/-- The two actions, each standing in the high byte of its data field (30_encoding.md R84). -/
theorem actionData_eq_some_iff {act : Byte} {data : Half} :
    actionData act = some data ↔ (act = 0x01 ∨ act = 0x02) ∧ data = act ++ 0#8 := by
  constructor
  · intro h
    unfold actionData at h
    split at h
    · next hon => subst hon; exact ⟨.inl rfl, (Option.some.inj h).symm⟩
    · split at h
      · next hoff => subst hoff; exact ⟨.inr rfl, (Option.some.inj h).symm⟩
      · cases h
  · rintro ⟨rfl | rfl, rfl⟩ <;> rfl

theorem mapRelay_of_good {ch act : Byte} (hch : channelValid ch = true) (hact : act = 0x01 ∨ act = 0x02) :
    mapRelay ch act = .ok { fc := 0x06, addr := zext16 ch, data := act ++ 0#8 } := by
  rw [mapRelay, if_pos hch, actionData_eq_some_iff.2 ⟨hact, rfl⟩]

/-- Settles O13: the body of the relay write, byte by byte. -/
theorem buildRelayFrame : Obligations.BuildRelayFrame := by
  intro dev ch act s hwf hdlo hdhi hclo hchi hact
  have hch := channelValid_of_bounds hclo hchi
  have hbody : buildBody dev { fc := 0x06, addr := zext16 ch, data := act ++ 0#8 } = [dev, 0x06, 0x00, ch, act, 0x00] := by
    simp only [buildBody, (relayAddr_bytes ch hch).1, loByte_zext16, hiByte_append, loByte_append]
    rfl
  rw [exec, execBldRly, mapRelay_of_good hch hact]
  exact buildChecked_ok hwf (deviceInRange_iff.2 ⟨hdlo, hdhi⟩) hbody

/-- Settles O14: the body of the input read, byte by byte. -/
theorem buildInputFrame : Obligations.BuildInputFrame := by
  intro dev ch s hwf hdlo hdhi hclo hchi
  have hch := channelValid_of_bounds hclo hchi
  have hbody : buildBody dev { fc := 0x03, addr := 0x0080 + zext16 ch, data := 0x0001 } =
      [dev, 0x03, 0x00, 0x80 + ch, 0x00, 0x01] := by
    simp only [buildBody, (inputAddr_bytes ch hch).1, loByte_inputAddr, readData_bytes]
  rw [exec, execBldDin, mapInput, if_pos hch]
  exact buildChecked_ok hwf (deviceInRange_iff.2 ⟨hdlo, hdhi⟩) hbody

/-- Settles O15: the body of the output-status read, byte by byte. -/
theorem buildOutputStatusFrame : Obligations.BuildOutputStatusFrame := by
  intro dev ch s hwf hdlo hdhi hclo hchi
  have hch := channelValid_of_bounds hclo hchi
  have hbody : buildBody dev { fc := 0x03, addr := zext16 ch + s.cfg.ostatOffset.setWidth 16, data := 0x0001 } =
      [dev, 0x03, 0x00, ch + s.cfg.ostatOffset.setWidth 8, 0x00, 0x01] := by
    simp only [buildBody, (ostatAddr_bytes s.cfg.ostatOffset ch hch).1, loByte_ostatAddr, readData_bytes]
  rw [exec, execBldOst, mapOstat, if_pos hch]
  exact buildChecked_ok hwf (deviceInRange_iff.2 ⟨hdlo, hdhi⟩) hbody

/-! ### Builds with a bad channel or action (60_exceptions.md R241, R242) -/

/-- Each of the three mappers checks the channel first (42_addrmap.md R144). -/
theorem buildChecked_badChannel {dev ch : Byte} (hdev : deviceInRange dev = true) (hch : ch.toNat < 1 ∨ 8 < ch.toNat)
    (m : Except OpError Mapping) (s : State) :
    buildChecked dev (if channelValid ch then m else .error .invalidChannel) s =
      .next { s with txv := false, responses := s.responses ++ [0x1000000000000000] } := by
  rw [if_neg (channelValid_iff.not_left.2 hch)]
  exact buildChecked_of_inRange hdev (.error _) s

/-- Settles O16: the error of the mapping is raised after TXV is cleared. -/
theorem failedBuildClearsOnlyFrameValid : Obligations.FailedBuildClearsOnlyFrameValid := by
  intro dev ch act s hdlo hdhi
  have hdev := deviceInRange_iff.2 ⟨hdlo, hdhi⟩
  refine ⟨fun hch => ⟨buildChecked_badChannel hdev hch _ s, buildChecked_badChannel hdev hch _ s,
    buildChecked_badChannel hdev hch _ s⟩, fun hclo hchi hon hoff => ?_⟩
  have hmap : mapRelay ch act = .error .invalidAction := by
    rw [mapRelay_eq, if_pos (channelValid_of_bounds hclo hchi), if_neg hon, if_neg hoff]
  rw [exec, execBldRly, hmap]
  exact buildChecked_of_inRange hdev (.error _) s

/-! ### TX.RD (R168) -/

theorem exec_txRd_frame {s : State} (h : s.txv = true) (i : BitVec 3) :
    exec (.txRd i) s = .next { s with responses := s.responses ++ [(s.txf.read i.toNat).setWidth 64] } := by
  have hword (b : Byte) : packResponse statusOk (bytePayload b) = b.setWidth 64 := by
    rw [packResponse_ok, bytePayload, BitVec.setWidth_setWidth (by decide)]
  rw [← hword]
  exact if_pos h

theorem exec_txRd_noFrame {s : State} (h : s.txv = false) (i : BitVec 3) :
    exec (.txRd i) s = .next { s with responses := s.responses ++ [0x3000000000000000] } :=
  if_neg (by simp [h])

/-- The word 0x6000000i. -/
theorem txRd_word : ∀ i : BitVec 3, encode (.txRd i) = .cw32 (0x60000000 + i.setWidth 32) := by decide

/-- Outside MAP, BLD and DEC no operation takes a kind, a device or a channel (R94). -/
theorem decode_illegal_of_unused_field {w : CmdWord} (hop : opField w ∉ [0x4, 0x5, 0x9])
    (hfield : rsvField w ≠ 0 ∨ kindField w ≠ 0 ∨ devField w ≠ 0 ∨ chField w ≠ 0) :
    decode (.cw32 w) = .reject .illegalCommand := by
  have hops : opField w ≠ 0x5 ∧ opField w ∉ [0x4, 0x5] := by
    simp only [List.mem_cons, not_or] at hop ⊢
    tauto
  obtain ⟨hdev, hch⟩ := hops
  rw [illegalWordsAreExactlyThese w]
  obtain h | h | h | h := hfield
  · exact .inr (.inl h)
  · exact .inr (.inr (.inr (.inl ⟨h, hop⟩)))
  · exact .inr (.inr (.inr (.inr (.inl ⟨h, hdev⟩))))
  · exact .inr (.inr (.inr (.inr (.inr (.inl ⟨h, hch⟩)))))

/-- An index has three bits (R94). -/
theorem decode_illegal_of_wide_index {w : CmdWord} (hop : opField w = 0x6) (harg : (argField w).extractLsb' 3 5 ≠ 0) :
    decode (.cw32 w) = .reject .illegalCommand := by
  rw [illegalWordsAreExactlyThese w]
  exact .inr (.inr (.inr (.inr (.inr (.inr (.inr (.inl ⟨harg, hop⟩)))))))

/-- Settles O18: the two values of TXV, the word read back, and R94's list. -/
theorem readFrameByte : Obligations.ReadFrameByte := by
  refine ⟨fun i _ h => exec_txRd_frame h i, fun i _ h => exec_txRd_noFrame h i,
    fun i => decode_eq_instr_iff.2 (txRd_word i), fun w hop hfield => ?_⟩
  by_cases harg : (argField w).extractLsb' 3 5 = 0
  · exact decode_illegal_of_unused_field (by rw [hop]; decide) (by simpa only [harg, ne_eq, not_true, or_false] using hfield)
  · exact decode_illegal_of_wide_index hop harg

/-! ### A frame determines its request (R163(e), 42_addrmap.md R148(c)) -/

theorem half_eq_of_bytes {a b : Half} (hhi : hiByte a = hiByte b) (hlo : loByte a = loByte b) : a = b := by
  rw [← half_of_bytes a, hhi, hlo, half_of_bytes]

/-- The first six bytes of a frame are the device and the three fields of the mapping. -/
theorem buildFrame_injective {dev dev' : Byte} {m m' : Mapping} (h : buildFrame dev m = buildFrame dev' m') :
    dev = dev' ∧ m = m' := by
  cases m
  cases m'
  simp only [buildFrame, buildBody, List.cons_append, List.cons.injEq] at h
  obtain ⟨hdev, hfc, haddrHi, haddrLo, hdataHi, hdataLo, -⟩ := h
  exact ⟨hdev, by rw [hfc, half_eq_of_bytes haddrHi haddrLo, half_eq_of_bytes hdataHi hdataLo]⟩

theorem zext16_injective {ch ch' : Byte} (h : zext16 ch = zext16 ch') : ch = ch' := by
  rw [← loByte_zext16 ch, h, loByte_zext16]

theorem actionData_injective {act act' : Byte} {data : Half} (h : actionData act = some data) (h' : actionData act' = some data) :
    act = act' := by
  obtain ⟨-, rfl⟩ := actionData_eq_some_iff.1 h
  obtain ⟨-, hdata⟩ := actionData_eq_some_iff.1 h'
  rw [← hiByte_append act 0#8, hdata, hiByte_append]

section
variable {o : BitVec 1} {ch ch' act act' : Byte} {m : Mapping}

theorem mapRelay_injective (h : mapRelay ch act = .ok m) (h' : mapRelay ch' act' = .ok m) : ch = ch' ∧ act = act' := by
  obtain ⟨-, data, hdata, rfl⟩ := mapRelay_ok h
  obtain ⟨-, data', hdata', hm⟩ := mapRelay_ok h'
  obtain ⟨-, haddr, rfl⟩ := Mapping.mk.inj hm
  exact ⟨zext16_injective haddr, actionData_injective hdata hdata'⟩

theorem mapInput_injective (h : mapInput ch = .ok m) (h' : mapInput ch' = .ok m) : ch = ch' := by
  obtain ⟨-, rfl⟩ := mapInput_ok h
  obtain ⟨-, hm⟩ := mapInput_ok h'
  obtain ⟨-, haddr, -⟩ := Mapping.mk.inj hm
  exact zext16_injective (BitVec.add_right_inj _ |>.1 haddr)

theorem mapOstat_injective (h : mapOstat o ch = .ok m) (h' : mapOstat o ch' = .ok m) : ch = ch' := by
  obtain ⟨-, rfl⟩ := mapOstat_ok h
  obtain ⟨-, hm⟩ := mapOstat_ok h'
  obtain ⟨-, haddr, -⟩ := Mapping.mk.inj hm
  exact zext16_injective (BitVec.add_left_inj _ |>.1 haddr)

/-! The function code tells a relay write from the two reads, the register address one read from the other. -/

theorem mapRelay_fc (h : mapRelay ch act = .ok m) : m.fc = 0x06 := by
  obtain ⟨-, data, -, rfl⟩ := mapRelay_ok h
  rfl

theorem mapInput_fc_addr (h : mapInput ch = .ok m) : m.fc = 0x03 ∧ 0x80 ≤ m.addr.toNat := by
  obtain ⟨-, rfl⟩ := mapInput_ok h
  exact ⟨rfl, inputAddr_toNat ch ▸ Nat.le_add_right ..⟩

theorem mapOstat_fc_addr (h : mapOstat o ch = .ok m) : m.fc = 0x03 ∧ m.addr.toNat ≤ 9 := by
  obtain ⟨hch, rfl⟩ := mapOstat_ok h
  have hchannel := channelValid_iff.1 hch
  exact ⟨rfl, by rw [ostatAddr_toNat]; omega⟩

theorem fc_write_ne_read {fc : Byte} (hwrite : fc = 0x06) (hread : fc = 0x03) : False :=
  absurd (hwrite.symm.trans hread) (by decide)

end

/-- Settles O21: equal frames have equal mappings, and a mapping determines its kind, channel and action. -/
theorem frameDeterminesRequest : Obligations.FrameDeterminesRequest := by
  intro o dev dev' ch ch' act act' m m' hframe
  obtain ⟨hdev, rfl⟩ := buildFrame_injective hframe
  refine ⟨fun h h' => ⟨hdev, mapRelay_injective h h'⟩, fun h h' => ⟨hdev, mapInput_injective h h'⟩,
    fun h h' => ⟨hdev, mapOstat_injective h h'⟩, ?_, ?_, ?_⟩
  · exact fun ⟨h, h'⟩ => fc_write_ne_read (mapRelay_fc h) (mapInput_fc_addr h').1
  · exact fun ⟨h, h'⟩ => fc_write_ne_read (mapRelay_fc h) (mapOstat_fc_addr h').1
  · intro ⟨h, h'⟩
    have hin := (mapInput_fc_addr h).2
    have hout := (mapOstat_fc_addr h').2
    omega

/-! ### A built frame pushed back (R163(g)) -/

/-- Where the received CRC is that of the bytes before it, the strict check changes nothing. -/
theorem decodeRead_strict_of_crc {raw : List Byte} (h : crc16Bytes (withoutCrc raw) = receivedCrc raw) :
    decodeRead true raw = decodeRead false raw := by
  simp [decodeRead, h]

/-- Settles O22: the last two bytes of a built frame are the CRC bytes of its first six. -/
theorem builtFramePassesStrictCheck : Obligations.BuiltFramePassesStrictCheck := fun _ _ =>
  ⟨rfl, rfl, decodeRead_strict_of_crc rfl⟩

end Sys2Proof
end

section
/-! SUPPORT. Family 44_decoder.md: filling and clearing the response buffer (R182, R183), the decode operations with their results
(R181, R184 to R189), and a reply followed by zeros (R190(d)). -/

namespace Sys2Proof

open Machine

/-! ### RX.CLR and RX.PUSH (R182, R183) -/

theorem exec_rxClr (s : State) :
    exec .rxClr s = .next { s with rxlen := 0, responses := s.responses ++ [0] } := rfl

/-- Settles O23: the operation's equation, its word read back, its operation code takes no operand, and no byte stands below length 0. -/
theorem clearEmptiesResponse : Obligations.ClearEmptiesResponse := by
  refine ⟨exec_rxClr, rfl, fun w hop hne => decode_illegal_of_no_operand (by simp [hop]) (by rwa [hop]), fun s t h => ?_⟩
  rw [exec_rxClr] at h
  cases h
  rfl

theorem exec_rxPush_room {s : State} (hlen : s.rxlen.toNat < 256) (b : Byte) :
    exec (.rxPush b) s = .next { s with
      rxb := s.rxb.write s.rxlen.toNat b
      rxlen := s.rxlen + 1
      responses := s.responses ++ [0] } := by
  have hne : s.rxlen ≠ 256 := fun hfull => by simp [hfull] at hlen
  exact (rxChecked_of_le hlen.le _).trans (congrArg _ (if_neg hne))

theorem exec_rxPush_full {s : State} (hlen : s.rxlen.toNat = 256) (b : Byte) :
    exec (.rxPush b) s = .next { s with responses := s.responses ++ [0x3000000000000000] } := by
  have hfull : s.rxlen = 256 := BitVec.eq_of_toNat_eq hlen
  exact (rxChecked_of_le hlen.le _).trans (congrArg _ (if_pos hfull))

/-- The word 0x800000bb. -/
theorem rxPush_word : ∀ b : Byte, encode (.rxPush b) = .cw32 (0x80000000 + b.setWidth 32) := by decide +kernel

/-- Settles O24: the write at RXLEN is read back there and nowhere else, and R94's list gives the illegal words. -/
theorem pushStoresAtLength : Obligations.PushStoresAtLength := by
  refine ⟨fun b s hwf hlen => ⟨_, exec_rxPush_room hlen b, ?_, fun i hi => ?_⟩, fun b s hlen => exec_rxPush_full hlen b,
    fun b => decode_eq_instr_iff.2 (rxPush_word b),
    fun w hop hfield => decode_illegal_of_unused_field (by rw [hop]; decide) hfield⟩
  · rw [Memory.read_write hwf, if_pos rfl]
  · rw [Memory.read_write hwf, if_neg hi.symm]

/-! ### DEC.RLY (R184, R185) -/

/-- A decode takes a kind and no other field (R94). -/
theorem decode_illegal_of_dec {w : CmdWord} (hop : opField w = 0x9)
    (hfield : rsvField w ≠ 0 ∨ devField w ≠ 0 ∨ chField w ≠ 0 ∨ argField w ≠ 0) :
    decode (.cw32 w) = .reject .illegalCommand := by
  rw [illegalWordsAreExactlyThese w, hop]
  obtain h | h | h | h := hfield
  · exact .inr (.inl h)
  · exact .inr (.inr (.inr (.inr (.inl ⟨h, by decide⟩))))
  · exact .inr (.inr (.inr (.inr (.inr (.inl ⟨h, by decide⟩)))))
  · exact .inr (.inr (.inr (.inr (.inr (.inr (.inl ⟨h, .inl (by decide)⟩))))))

theorem decodeWrite_rxBytes (s : State) :
    decodeWrite s.rxBytes = if s.rxlen = 0 then ⟨.unknown, .timeout⟩ else ⟨.acknowledged, .none⟩ := by
  simp [decodeWrite, BitVec.toNat_eq]

theorem exec_decRly {s : State} (hlen : s.rxlen.toNat ≤ 256) :
    exec .decRly s = .next { s with
      rxlen := 0
      responses := s.responses ++ [if s.rxlen = 0 then 0x6 else 0x3] } := by
  refine (rxChecked_of_le hlen _).trans ?_
  rw [decodeWriteOp, decodeWrite_rxBytes]
  split_ifs <;> rfl

/-- Settles O27: a write decode looks at emptiness only, the word is read back, and R94's list gives the illegal words. -/
theorem decodeWriteAcknowledges : Obligations.DecodeWriteAcknowledges := by
  refine ⟨fun s => exec_decRly, rfl, fun w hop hkind hne => decode_illegal_of_dec hop ?_⟩
  by_contra! hzero
  obtain ⟨hrsv, hrest⟩ := hzero
  exact hne (eq_packCommand_iff.2 ⟨hop, hrsv, hkind, hrest⟩)

/-! ### The bytes a read decode looks at (R186) -/

theorem withoutCrc_rxBytes (s : State) : withoutCrc s.rxBytes = s.rxb.bytes (s.rxlen.toNat - 2) := by
  simp [withoutCrc, State.rxBytes, Memory.bytes, ← List.map_take, List.take_range]

theorem receivedCrc_rxBytes {s : State} (hlen : 2 ≤ s.rxlen.toNat) :
    receivedCrc s.rxBytes = [s.rxb.read (s.rxlen.toNat - 2), s.rxb.read (s.rxlen.toNat - 1)] := by
  obtain ⟨n, hn⟩ := Nat.exists_eq_add_of_le' hlen
  simp [receivedCrc, State.rxBytes, Memory.bytes, hn, List.range_succ]

/-- The CRC test of R186, byte by byte, the low CRC byte at RXLEN - 2. -/
theorem crc16Bytes_eq_receivedCrc_iff {s : State} (hlen : 2 ≤ s.rxlen.toNat) :
    crc16Bytes (withoutCrc s.rxBytes) = receivedCrc s.rxBytes ↔
      loByte (crc16 (s.rxb.bytes (s.rxlen.toNat - 2))) = s.rxb.read (s.rxlen.toNat - 2) ∧
      hiByte (crc16 (s.rxb.bytes (s.rxlen.toNat - 2))) = s.rxb.read (s.rxlen.toNat - 1) := by
  rw [withoutCrc_rxBytes, receivedCrc_rxBytes hlen]
  simp [crc16Bytes]

/-! ### DEC.DIN and DEC.OST (R187 to R189) -/

/-- The response word of a read decode, by the tests of R186 in their order. -/
theorem readResponse_eq (s : State) :
    packResponse statusOk (resultPayload (decodeRead s.strict s.rxBytes)) =
      if s.rxlen.toNat = 0 then 0x6
      else if s.rxlen.toNat < 5 then 0xA
      else if s.strict = true ∧ crc16Bytes (withoutCrc s.rxBytes) ≠ receivedCrc s.rxBytes then 0xA
      else if s.rxb.read 4 = 0x01 then 0x1 else 0x0 := by
  by_cases hlen : s.rxlen.toNat < 5
  · simp only [decodeRead, rxBytes_length, rxMinDecodable, if_pos hlen]
    split_ifs <;> rfl
  · have hbyte : s.rxBytes.getD rxStateOffset 0 = s.rxb.read 4 := Memory.getD_bytes s.rxb (by rw [rxStateOffset]; omega)
    simp only [decodeRead, rxBytes_length, rxMinDecodable, hbyte]
    split_ifs <;> rfl

/-- Both read kinds are the one transition. -/
theorem exec_read {s t : State} (hlen : s.rxlen.toNat ≤ 256) (ht : decodeReadOp s = t) :
    exec .decDin s = .next t ∧ exec .decOst s = .next t := by
  subst ht
  exact ⟨rxChecked_of_le hlen _, rxChecked_of_le hlen _⟩

theorem decodeReadOp_eq (s : State) :
    decodeReadOp s = { s with
      crc := decodedCrc s
      rxlen := 0
      responses := s.responses ++ [packResponse statusOk (resultPayload (decodeRead s.strict s.rxBytes))] } := rfl

/-- Settles O28: with the CRC test left out, R186's tests are these, and CRC is not written. -/
theorem decodeReadReferenceMode : Obligations.DecodeReadReferenceMode := by
  intro s hstrict hlen
  refine ⟨_, rfl, exec_read hlen ?_⟩
  have hcrc : decodedCrc s = s.crc := if_neg (by simp [hstrict])
  rw [decodeReadOp_eq, readResponse_eq, hcrc]
  simp [hstrict]

theorem decodedCrc_strict {s : State} (hstrict : s.strict = true) :
    decodedCrc s = if s.rxlen.toNat < 5 then s.crc else crc16 (s.rxb.bytes (s.rxlen.toNat - 2)) := by
  simp only [decodedCrc, hstrict, true_and, rxMinDecodable, ← not_lt, ite_not, withoutCrc_rxBytes]

/-- Settles O29: the CRC test is the comparison of the two last bytes, and CRC holds what was computed for it. -/
theorem decodeReadStrictMode : Obligations.DecodeReadStrictMode := by
  intro s hstrict hlen
  refine ⟨_, rfl, exec_read hlen ?_⟩
  rw [decodeReadOp_eq, readResponse_eq, decodedCrc_strict hstrict]
  by_cases hshort : s.rxlen.toNat < 5
  · simp [hshort]
  · have hmatch := crc16Bytes_eq_receivedCrc_iff (s := s) (by omega)
    simp only [hstrict, hshort, true_and, ne_eq, ite_not, hmatch, if_false]
    rfl

/-! ### The five results (R181, 30_encoding.md R99) -/

/-- Settles O30: each branch of the two functions answers a result of its list, and the codes are computed. -/
theorem onlyFiveResults : Obligations.OnlyFiveResults := by
  refine ⟨fun strict raw => ?_, fun raw => ?_, rfl, rfl, rfl, rfl, rfl⟩
  · unfold decodeRead
    split_ifs <;> simp
  · unfold decodeWrite
    split_ifs <;> simp

/-! ### A good reply followed by zeros (R190(d)) -/

theorem withoutCrc_append_crc16Bytes (u : List Byte) : withoutCrc (u ++ crc16Bytes u) = u := by
  simp [withoutCrc, crc16Bytes]

theorem receivedCrc_append_crc16Bytes (u : List Byte) : receivedCrc (u ++ crc16Bytes u) = crc16Bytes u := by
  simp [receivedCrc, crc16Bytes]

/-- After `u` and the low CRC byte the register is the high byte zero-extended, so that a zero byte ends a good reply again. -/
theorem goodReply_append_zero (u : List Byte) :
    u ++ crc16Bytes u ++ [0x00] = (u ++ [loByte (crc16 u)]) ++ crc16Bytes (u ++ [loByte (crc16 u)]) := by
  have hcrc : crc16 (u ++ [loByte (crc16 u)]) = (hiByte (crc16 u)).setWidth 16 := by
    rw [crc16, List.foldl_append]
    exact crcByte_loByte (crc16 u)
  have hbytes : ∀ b : Byte, loByte (b.setWidth 16) = b ∧ hiByte (b.setWidth 16) = 0x00 := by decide
  simp [crc16Bytes, hcrc, hbytes]

/-- A good reply followed by zeros is a good reply. -/
theorem goodReply_append_zeros (u : List Byte) (k : Nat) :
    ∃ v, u ++ crc16Bytes u ++ List.replicate k 0x00 = v ++ crc16Bytes v := by
  induction k generalizing u with
  | zero => exact ⟨u, by simp⟩
  | succ k ih =>
    obtain ⟨v, hv⟩ := ih (u ++ [loByte (crc16 u)])
    refine ⟨v, ?_⟩
    rw [List.replicate_succ, ← List.singleton_append, ← List.append_assoc, goodReply_append_zero, hv]

theorem decodeRead_reference {raw : List Byte} (hlen : 5 ≤ raw.length) :
    decodeRead false raw = if raw.getD 4 0 = 0x01 then ⟨.on, .none⟩ else ⟨.off, .none⟩ := by
  have hnonempty : raw.length ≠ 0 := by omega
  simp [decodeRead, rxMinDecodable, rxStateOffset, hnonempty, hlen]

/-- Settles O32: the zeros leave the strict check as it is, and offset 4 is still inside the reply. -/
theorem strictAcceptsTrailingZeros : Obligations.StrictAcceptsTrailingZeros := by
  intro body k hlen
  have hreply : 5 ≤ (body ++ crc16Bytes body).length := by simpa [crc16Bytes] using hlen
  have hcheck : decodeRead true (body ++ crc16Bytes body ++ List.replicate k 0x00) =
      decodeRead false (body ++ crc16Bytes body ++ List.replicate k 0x00) := by
    obtain ⟨v, hv⟩ := goodReply_append_zeros body k
    rw [hv]
    exact decodeRead_strict_of_crc (by rw [withoutCrc_append_crc16Bytes, receivedCrc_append_crc16Bytes])
  rw [hcheck, decodeRead_reference (by rw [List.length_append]; omega), List.getD_append _ _ _ _ hreply]

end Sys2Proof
end

section
/-! SUPPORT. Family 45_system.md: the system operations MODE and STAT with their words (R201, R202). -/

namespace Sys2Proof

open Machine

/-! ### STAT (R202) -/

/-- The payload of STAT from the values of what it reads, each at its place (30_encoding.md R89). -/
theorem packResponse_statPayload (s : State) :
    packResponse statusOk (statPayload s) = BitVec.ofNat 64
      ((if s.strict then 1 else 0) + (if s.txv then 2 else 0) + 16 * s.cfg.ostatOffset.toNat + 256 * s.rxlen.toNat) := by
  have hstrict : (BitVec.ofBool s.strict).toNat = if s.strict then 1 else 0 := by cases s.strict <;> rfl
  have htxv : (BitVec.ofBool s.txv).toNat * 2 = if s.txv then 2 else 0 := by cases s.txv <;> rfl
  refine BitVec.eq_of_toNat_eq ?_
  simp only [packResponse_ok, statPayload, toNat_append_eq_add, BitVec.toNat_setWidth, BitVec.toNat_ofNat, ← hstrict, ← htxv]
  omega

theorem exec_stat (s : State) :
    exec .stat s = .next { s with responses := s.responses ++ [BitVec.ofNat 64
      ((if s.strict then 1 else 0) + (if s.txv then 2 else 0) + 16 * s.cfg.ostatOffset.toNat + 256 * s.rxlen.toNat)] } := by
  rw [← packResponse_statPayload]
  rfl

/-- Settles O34: the payload as a sum of its fields, its word read back, and its operation code takes no operand. -/
theorem statusViewReadsState : Obligations.StatusViewReadsState :=
  ⟨exec_stat, rfl, fun w hop hne => decode_illegal_of_no_operand (by simp [hop]) (by rwa [hop])⟩

/-! ### MODE (R201) -/

theorem exec_mode (m : BitVec 1) (s : State) :
    exec (.mode m) s = .next { s with strict := modeBit m, responses := s.responses ++ [0] } := rfl

/-- The word 0xA000000s. -/
theorem mode_word : ∀ m : BitVec 1, encode (.mode m) = .cw32 (0xA0000000 + m.setWidth 32) := by decide

/-- A mode has one bit (R94). -/
theorem decode_illegal_of_wide_mode {w : CmdWord} (hop : opField w = 0xA) (harg : (argField w).extractLsb' 1 7 ≠ 0) :
    decode (.cw32 w) = .reject .illegalCommand := by
  rw [illegalWordsAreExactlyThese w]
  exact .inr (.inr (.inr (.inr (.inr (.inr (.inr (.inr ⟨harg, hop⟩)))))))

/-- Settles O33: the operation's equation at both values, its word read back, and R94's list. -/
theorem modeSetsStrict : Obligations.ModeSetsStrict := by
  refine ⟨fun s => ⟨exec_mode 1 s, exec_mode 0 s⟩, fun m => decode_eq_instr_iff.2 (mode_word m), fun w hop hfield => ?_⟩
  by_cases harg : (argField w).extractLsb' 1 7 = 0
  · exact decode_illegal_of_unused_field (by rw [hop]; decide) (by simpa only [harg, ne_eq, not_true, or_false] using hfield)
  · exact decode_illegal_of_wide_mode hop harg

end Sys2Proof
end

section
/-! SUPPORT. Family 46_commands.md: the host actions (R211), the Exchange (R212), the single-cycle commands (R214 to R216) and the two
batches (R217 to R219). -/

namespace Sys2Proof.Machine

/-! ### Reading the frame out (R211, 20_memory.md R57) -/

theorem txRd_result : ∀ b : Byte, (payloadField (b.setWidth 64)).setWidth 8 = b := by decide +kernel

/-- TX.RD at any indexes answers the bytes there and changes nothing but the responses. -/
theorem readBytes_frame (is : List (BitVec 3)) {s : State} (htxv : s.txv = true) :
    readBytes is s = .next
      ({ s with responses := s.responses ++ is.map fun i => (s.txf.read i.toNat).setWidth 64 }, is.map fun i => s.txf.read i.toNat) := by
  induction is generalizing s with
  | nil => simp [readBytes]
  | cons i is ih =>
    rw [readBytes, issue_of_exec (exec_txRd_frame htxv i), andThen_next]
    simp [ih, htxv, State.lastResponse, txRd_result]

/-- Settles O19: the indexes 0 to 7 are the offsets of TXF. -/
theorem readoutGivesFrameAndKeepsIt : Obligations.ReadoutGivesFrameAndKeepsIt := fun _ htxv =>
  readBytes_frame [0, 1, 2, 3, 4, 5, 6, 7] htxv

/-! ### Loading a reply (R211, 20_memory.md R53) -/

/-- The state after one RX.PUSH for each byte of `raw`, with room for all of them. -/
def State.afterLoad (raw : List Byte) (s : State) : State :=
  { s with
    rxb := s.rxb.writeFrom s.rxlen.toNat raw
    rxlen := s.rxlen + BitVec.ofNat 9 raw.length
    responses := s.responses ++ List.replicate raw.length 0 }

theorem afterLoad_rxlen {raw : List Byte} {s : State} (hroom : s.rxlen.toNat + raw.length ≤ 256) :
    (s.afterLoad raw).rxlen.toNat = s.rxlen.toNat + raw.length := by
  rw [State.afterLoad, BitVec.toNat_add, BitVec.toNat_ofNat]
  omega

/-- A push and then the rest. -/
theorem afterLoad_cons (b : Byte) (raw : List Byte) {s : State} (hroom : s.rxlen.toNat < 256) :
    s.afterLoad (b :: raw) = State.afterLoad raw { s with
      rxb := s.rxb.write s.rxlen.toNat b
      rxlen := s.rxlen + 1
      responses := s.responses ++ [0] } := by
  have hlen : (s.rxlen.toNat + 1) % 512 = s.rxlen.toNat + 1 := Nat.mod_eq_of_lt (by omega)
  have hsum : s.rxlen + BitVec.ofNat 9 (raw.length + 1) = s.rxlen + 1 + BitVec.ofNat 9 raw.length := by
    rw [Nat.add_comm, BitVec.ofNat_add, BitVec.add_assoc]
    rfl
  simp [State.afterLoad, Memory.writeFrom, hlen, hsum, List.replicate_succ]

theorem loadBytes_eq {raw : List Byte} {s : State} (hroom : s.rxlen.toNat + raw.length ≤ 256) :
    loadBytes raw s = .next (s.afterLoad raw) := by
  induction raw generalizing s with
  | nil => simp [loadBytes, State.afterLoad, Memory.writeFrom]
  | cons b raw ih =>
    rw [List.length_cons] at hroom
    rw [loadBytes, exec_rxPush_room (by omega) b, andThen_next, afterLoad_cons b raw (by omega)]
    exact ih (by bv_omega)

/-- Bytes written behind the `n` bytes of a buffer. -/
theorem Memory.bytes_writeFrom_end {m : Memory} {size n : Nat} (h : m.wf size = true) (bs : List Byte) (hroom : n + bs.length ≤ size) :
    (m.writeFrom n bs).bytes (n + bs.length) = m.bytes n ++ bs := by
  induction bs generalizing m n with
  | nil => simp [Memory.writeFrom]
  | cons b bs ih =>
    rw [List.length_cons] at hroom ⊢
    have hnext := ih (Memory.wf_write h (i := n) (by omega) b) (n := n + 1) (by omega)
    rw [Memory.writeFrom, Nat.add_comm bs.length, ← Nat.add_assoc, hnext, Memory.bytes_write_end h, List.append_assoc]
    rfl

theorem rxBytes_afterLoad {raw : List Byte} {s : State} (hwf : s.rxb.wf rxbSize = true) (hroom : s.rxlen.toNat + raw.length ≤ 256) :
    (s.afterLoad raw).rxBytes = s.rxBytes ++ raw := by
  rw [State.rxBytes, afterLoad_rxlen hroom]
  exact Memory.bytes_writeFrom_end hwf raw hroom

/-- Settles O26: the pushes write RXB from RXLEN up, byte after byte. -/
theorem loadAppendsBytes : Obligations.LoadAppendsBytes := by
  intro raw s hwf hroom
  have hlen := afterLoad_rxlen hroom
  refine ⟨_, (s.afterLoad raw).rxlen, loadBytes_eq hroom, hlen, rxBytes_afterLoad hwf hroom, fun i hi => ?_⟩
  rw [hlen] at hi
  exact (Memory.read_writeFrom hwf raw _ hroom i).trans (if_neg (by omega))

/-! ### The Exchange (R212) -/

/-- Settles O54: a reply that a scenario fixes is cut to 256 bytes, and a drawn one has no more. -/
theorem replyIsBounded : Obligations.ReplyIsBounded := by
  intro s raw hreply
  unfold State.nextReply at hreply
  split at hreply
  · next r _ _ =>
    cases r with
    | bytes full => cases hreply; exact List.length_take_le ..
    | transportError => cases hreply
  · exact freeReply_length hreply

/-! ### The second half of a cycle: load and decode (R214 to R216) -/

/-- What a cycle finds and what it leaves: buffers in canonical form, no response held, the mode and the parameters of the command. -/
structure State.Ready (strict : Bool) (cfg : Config) (s : State) : Prop where
  txf_wf : s.txf.wf txfSize = true
  rxb_wf : s.rxb.wf rxbSize = true
  rxlen_zero : s.rxlen = 0
  strict_eq : s.strict = strict
  cfg_eq : s.cfg = cfg

theorem State.Inv.ready {s : State} (hinv : s.Inv) (hempty : s.rxlen = 0) : s.Ready s.strict s.cfg :=
  ⟨hinv.txf_wf, hinv.rxb_wf, hempty, rfl, rfl⟩

/-- `dec` is a decode operation whose result is `d` of the mode and of the response, one of those the host reads. -/
structure Decodes (dec : Instr) (d : Bool → List Byte → DecResult) : Prop where
  exec_eq : ∀ s : State, s.rxlen.toNat ≤ 256 →
    ∃ crc : Half, exec dec s = .next (finishDecode (d s.strict s.rxBytes) { s with crc := crc })
  readable : ∀ strict raw, resultOf (resultPayload (d strict raw)) = some (d strict raw)

theorem decodes_decRly : Decodes .decRly fun _ => decodeWrite where
  exec_eq s hlen := ⟨s.crc, rxChecked_of_le hlen _⟩
  readable _ raw := by
    unfold decodeWrite
    split <;> rfl

theorem decodeRead_readable (strict : Bool) (raw : List Byte) :
    resultOf (resultPayload (decodeRead strict raw)) = some (decodeRead strict raw) :=
  resultOf_payload (List.mem_append_left [(⟨.acknowledged, .none⟩ : DecResult)] (onlyFiveResults.1 strict raw))

theorem decodes_decDin : Decodes .decDin decodeRead :=
  ⟨fun s hlen => ⟨decodedCrc s, rxChecked_of_le hlen _⟩, decodeRead_readable⟩

theorem decodes_decOst : Decodes .decOst decodeRead :=
  ⟨fun s hlen => ⟨decodedCrc s, rxChecked_of_le hlen _⟩, decodeRead_readable⟩

/-- How a cycle whose build succeeded ends, from what its Exchange brought back. -/
def cycleResult (d : List Byte → DecResult) : Reply → CommandResult
  | .transportError => .transportError
  | .bytes raw => .decoded (d raw)

section
variable {strict : Bool} {cfg : Config} {s : State}

theorem readResult_finishDecode {r : DecResult} (hr : resultOf (resultPayload r) = some r) :
    readResult (finishDecode r s).lastResponse = .decoded r := by
  rw [finishDecode, lastResponse_respond, readResult, payloadField_pack, hr]

theorem decodeReply_runs {dec : Instr} {d : Bool → List Byte → DecResult} (hdec : Decodes dec d) (hs : s.Ready strict cfg)
    {r : Reply} (hbound : ∀ raw, r = .bytes raw → raw.length ≤ 256) :
    ∃ t, decodeReply dec r s = .next (t, cycleResult (d strict) r) ∧ t.Ready strict cfg ∧
      t.replies = s.replies ∧ t.bus = s.bus := by
  obtain ⟨htxf, hrxb, hempty, rfl, rfl⟩ := hs
  cases r with
  | transportError => exact ⟨s, rfl, ⟨htxf, hrxb, hempty, rfl, rfl⟩, rfl, rfl⟩
  | bytes raw =>
    have hroom : s.rxlen.toNat + raw.length ≤ 256 := by simpa [hempty] using hbound raw rfl
    have hloaded : (s.afterLoad raw).rxBytes = raw := by
      rw [rxBytes_afterLoad hrxb hroom, State.rxBytes, hempty]
      rfl
    obtain ⟨crc, hexec⟩ := hdec.exec_eq (s.afterLoad raw) (by rwa [afterLoad_rxlen hroom])
    rw [hloaded] at hexec
    refine ⟨finishDecode (d s.strict raw) { s.afterLoad raw with crc := crc }, ?_,
      ⟨htxf, Memory.wf_writeFrom hrxb raw _ hroom, rfl, rfl, rfl⟩, rfl, rfl⟩
    simp only [decodeReply, loadBytes_eq hroom, issue_of_exec hexec, andThen_next, readResult_finishDecode (hdec.readable _ _)]
    rfl

/-! ### One cycle (R214 to R216) -/

/-- The cycle runs from `s` to the state of the next one and answers `d` of what its one Exchange, of the frame `f`, brought back. -/
def CycleRuns (strict : Bool) (cfg : Config) (cycle : State → Host.Outcome (State × CommandResult) Fault Refusal)
    (d : List Byte → DecResult) (f : List Byte) (s : State) : Prop :=
  ∃ t, cycle s = .next (t, cycleResult d s.nextReply) ∧ t.Ready strict cfg ∧
    t.replies = s.replies.tail ∧ t.bus = s.bus ++ [{ frame := f, reply := s.nextReply }]

theorem busCycle_runs {bld dec : Instr} {d : Bool → List Byte → DecResult} {dev : Byte} {m : Mapping} (hdec : Decodes dec d)
    (hdev : deviceInRange dev = true) (hs : s.Ready strict cfg) (hbld : exec bld s = buildChecked dev (.ok m) s) :
    CycleRuns strict cfg (busCycle bld dec) (d strict) (buildFrame dev m) s := by
  have hbuilt := issue_of_exec (hbld.trans (buildChecked_of_inRange hdev _ s))
  have hok : errorOf (buildOp dev (.ok m) s).lastResponse = none := by
    rw [buildOp, lastResponse_respond, errorOf_pack_ok]
  have hbytes := buildOp_ok_txBytes hs.txf_wf dev m
  have hread := readoutGivesFrameAndKeepsIt (buildOp dev (.ok m) s) rfl
  rw [hbytes] at hread
  have hsent : (exchange (buildFrame dev m) { buildOp dev (.ok m) s with
      responses := (buildOp dev (.ok m) s).responses ++ (buildFrame dev m).map (·.setWidth 64) }).Ready strict cfg :=
    { hs with txf_wf := Memory.wf_writeFrom hs.txf_wf _ 0 le_rfl }
  obtain ⟨t, hrun, hready, hreplies, hbus⟩ := decodeReply_runs hdec hsent (replyIsBounded s)
  refine ⟨t, ?_, hready, hreplies, hbus⟩
  simp only [busCycle, hbuilt, hok, hread, andThen_next]
  exact hrun

/-! The frames of the three requests, byte by byte. -/

theorem buildFrame_relay (dev act : Byte) {ch : Byte} (hch : channelValid ch = true) :
    buildFrame dev { fc := 0x06, addr := zext16 ch, data := act ++ 0#8 } =
      [dev, 0x06, 0x00, ch, act, 0x00] ++ crc16Bytes [dev, 0x06, 0x00, ch, act, 0x00] := by
  simp only [buildFrame, buildBody, (relayAddr_bytes ch hch).1, loByte_zext16, hiByte_append, loByte_append]
  rfl

theorem buildFrame_input (dev : Byte) {ch : Byte} (hch : channelValid ch = true) :
    buildFrame dev { fc := 0x03, addr := 0x0080 + zext16 ch, data := 0x0001 } =
      [dev, 0x03, 0x00, 0x80 + ch, 0x00, 0x01] ++ crc16Bytes [dev, 0x03, 0x00, 0x80 + ch, 0x00, 0x01] := by
  simp only [buildFrame, buildBody, (inputAddr_bytes ch hch).1, loByte_inputAddr, readData_bytes]

theorem buildFrame_ostat (dev : Byte) (offset : BitVec 1) {ch : Byte} (hch : channelValid ch = true) :
    buildFrame dev { fc := 0x03, addr := zext16 ch + offset.setWidth 16, data := 0x0001 } =
      [dev, 0x03, 0x00, ch + offset.setWidth 8, 0x00, 0x01] ++ crc16Bytes [dev, 0x03, 0x00, ch + offset.setWidth 8, 0x00, 0x01] := by
  simp only [buildFrame, buildBody, (ostatAddr_bytes offset ch hch).1, loByte_ostatAddr, readData_bytes]

/-! The three single-cycle commands. -/

section
variable {dev ch : Byte} (hdev : deviceInRange dev = true) (hch : channelValid ch = true) (hs : s.Ready strict cfg)
include hdev hch hs

theorem relayWrite_runs {act : Byte} (hact : act = 0x01 ∨ act = 0x02) :
    CycleRuns strict cfg (relayWrite dev ch act) decodeWrite
      ([dev, 0x06, 0x00, ch, act, 0x00] ++ crc16Bytes [dev, 0x06, 0x00, ch, act, 0x00]) s := by
  rw [← buildFrame_relay dev act hch]
  exact busCycle_runs decodes_decRly hdev hs (by rw [exec, execBldRly, mapRelay_of_good hch hact])

theorem inputRead_runs : CycleRuns strict cfg (inputRead dev ch) (decodeRead strict)
    (buildFrame dev { fc := 0x03, addr := 0x0080 + zext16 ch, data := 0x0001 }) s :=
  busCycle_runs decodes_decDin hdev hs (by rw [exec, execBldDin, mapInput, if_pos hch])

theorem outputRead_runs : CycleRuns strict cfg (outputRead dev ch) (decodeRead strict)
    (buildFrame dev { fc := 0x03, addr := zext16 ch + cfg.ostatOffset.setWidth 16, data := 0x0001 }) s :=
  busCycle_runs decodes_decOst hdev hs (by rw [exec, execBldOst, mapOstat, if_pos hch, hs.cfg_eq])

end

end

/-- Settles O55: the cycle of the relay write, `decodeWrite` written out. -/
theorem relayWriteCycle : Obligations.RelayWriteCycle := by
  intro dev ch act s hinv hempty hdlo hdhi hclo hchi hact
  obtain ⟨t, hrun, hready, hreplies, hbus⟩ :=
    relayWrite_runs (deviceInRange_iff.2 ⟨hdlo, hdhi⟩) (channelValid_of_bounds hclo hchi) (hinv.ready hempty) hact
  refine ⟨t, hrun.trans ?_, hbus, hready.rxlen_zero, hready.strict_eq, hready.cfg_eq, hreplies⟩
  cases s.nextReply with
  | transportError => rfl
  | bytes raw => simp only [cycleResult, decodeWrite, List.length_eq_zero_iff]

/-- Settles O56: the cycles of the two reads. -/
theorem readCycles : Obligations.ReadCycles := by
  intro dev ch s hinv hempty hdlo hdhi hclo hchi
  have hdev := deviceInRange_iff.2 ⟨hdlo, hdhi⟩
  have hch := channelValid_of_bounds hclo hchi
  have hs := hinv.ready hempty
  rw [← buildFrame_input dev hch, ← buildFrame_ostat dev s.cfg.ostatOffset hch]
  obtain ⟨t, hrun, hready, hreplies, hbus⟩ := inputRead_runs hdev hch hs
  obtain ⟨t', hrun', hready', hreplies', hbus'⟩ := outputRead_runs hdev hch hs
  refine ⟨⟨t, hrun.trans ?_, hbus, hready.rxlen_zero, hready.strict_eq, hready.cfg_eq, hreplies⟩,
    t', hrun'.trans ?_, hbus', hready'.rxlen_zero, hready'.strict_eq, hready'.cfg_eq, hreplies'⟩
  all_goals cases s.nextReply <;> rfl

/-! ### The batches (R217 to R219) -/

section
variable {strict : Bool} {cfg : Config} {cycle : Byte → State → Host.Outcome (State × CommandResult) Fault Refusal}
  {d : List Byte → DecResult} {frame : Byte → List Byte}

/-- A cycle that got bytes gives the first result, and the batch goes on with the next channel. -/
theorem batchOver_bytes {s : State} {ch : Byte} {raw : List Byte} (chs : List Byte)
    (hrun : CycleRuns strict cfg (cycle ch) d (frame ch) s) (hreply : s.nextReply = .bytes raw) :
    ∃ s₁, s₁.Ready strict cfg ∧ s₁.replies = s.replies.tail ∧
      s₁.bus = s.bus ++ [{ frame := frame ch, reply := .bytes raw }] ∧
      ∀ t b, batchOver cycle chs s₁ = .next (t, b) → batchOver cycle (ch :: chs) s = .next (t, b.withFirst (d raw)) := by
  obtain ⟨s₁, hcycle, hready, hreplies, hbus⟩ := hrun
  rw [hreply] at hcycle hbus
  exact ⟨s₁, hready, hreplies, hbus, fun t b hrest => by simp [batchOver, hcycle, cycleResult, hrest]⟩

theorem nextReply_bytes {s : State} {raw : List Byte} {rest : List Reply} (hlen : raw.length ≤ 256)
    (hreplies : s.replies = .bytes raw :: rest) : s.nextReply = .bytes raw := by
  simp [State.nextReply, hreplies, Reply.clip, rxbSize, List.take_of_length_le hlen]

variable {chs : List Byte} (hruns : ∀ ch ∈ chs, ∀ s : State, s.Ready strict cfg → CycleRuns strict cfg (cycle ch) d (frame ch) s)
include hruns

/-- A batch whose replies a scenario fixes, one for each channel. -/
theorem batchOver_fixedReplies {raws : List (List Byte)} {rest : List Reply} {s : State} (hs : s.Ready strict cfg)
    (hlen : raws.length = chs.length) (hbound : ∀ raw ∈ raws, raw.length ≤ 256)
    (hreplies : s.replies = raws.map Reply.bytes ++ rest) :
    ∃ t, batchOver cycle chs s = .next (t, .results (raws.map d)) ∧ t.replies = rest ∧ t.rxlen = 0 ∧
      t.bus.map Cycle.reply = s.bus.map Cycle.reply ++ raws.map Reply.bytes ∧
      t.bus.map Cycle.frame = s.bus.map Cycle.frame ++ chs.map frame := by
  induction chs generalizing raws s with
  | nil =>
    obtain rfl := List.length_eq_zero_iff.1 hlen
    exact ⟨s, rfl, hreplies, hs.rxlen_zero, by simp, by simp⟩
  | cons ch chs ih =>
    obtain ⟨raw, raws, rfl⟩ := List.exists_cons_of_length_eq_add_one hlen
    rw [List.forall_mem_cons] at hruns hbound
    have hreply := nextReply_bytes hbound.1 hreplies
    obtain ⟨s₁, hs₁, htail, hbus, hnext⟩ := batchOver_bytes chs (hruns.1 s hs) hreply
    obtain ⟨t, hrest, hleft, hempty, hgot, hsent⟩ :=
      ih hruns.2 hs₁ (Nat.succ.inj hlen) hbound.2 (by rw [htail, hreplies]; rfl)
    exact ⟨t, hnext _ _ hrest, hleft, hempty, by simp [hgot, hbus], by simp [hsent, hbus]⟩

/-- A batch in any environment: a result for each channel, or the end at the first TransportError. -/
theorem batchOver_anyReplies {s : State} (hs : s.Ready strict cfg) :
    ∃ (t : State) (raws : List (List Byte)), t.rxlen = 0 ∧
      ((raws.length = chs.length ∧ batchOver cycle chs s = .next (t, .results (raws.map d)) ∧
        t.bus.map Cycle.reply = s.bus.map Cycle.reply ++ raws.map Reply.bytes ∧
        t.bus.map Cycle.frame = s.bus.map Cycle.frame ++ chs.map frame) ∨
       (raws.length < chs.length ∧ batchOver cycle chs s = .next (t, .transportError) ∧
        t.bus.map Cycle.reply = s.bus.map Cycle.reply ++ raws.map Reply.bytes ++ [.transportError] ∧
        t.bus.map Cycle.frame = s.bus.map Cycle.frame ++ (chs.take (raws.length + 1)).map frame)) := by
  induction chs generalizing s with
  | nil => exact ⟨s, [], hs.rxlen_zero, .inl ⟨rfl, rfl, by simp, by simp⟩⟩
  | cons ch chs ih =>
    rw [List.forall_mem_cons] at hruns
    cases hreply : s.nextReply with
    | transportError =>
      obtain ⟨t, hcycle, hready, -, hbus⟩ := hruns.1 s hs
      rw [hreply] at hcycle hbus
      exact ⟨t, [], hready.rxlen_zero, .inr ⟨Nat.succ_pos _, by simp [batchOver, hcycle, cycleResult],
        by simp [hbus], by simp [hbus]⟩⟩
    | bytes raw =>
      obtain ⟨s₁, hs₁, -, hbus, hnext⟩ := batchOver_bytes chs (hruns.1 s hs) hreply
      obtain ⟨t, raws, hempty, ⟨hlen, hrest, hgot, hsent⟩ | ⟨hlen, hrest, hgot, hsent⟩⟩ := ih hruns.2 hs₁
      · exact ⟨t, raw :: raws, hempty, .inl ⟨congrArg _ hlen, hnext _ _ hrest, by simp [hgot, hbus], by simp [hsent, hbus]⟩⟩
      · exact ⟨t, raw :: raws, hempty, .inr ⟨Nat.succ_lt_succ hlen, hnext _ _ hrest, by simp [hgot, hbus], by simp [hsent, hbus]⟩⟩

end

theorem channelValid_of_mem_batchChannels : ∀ ch ∈ batchChannels, channelValid ch = true := by decide

/-- Settles O58: each cycle of the poll is a read cycle, in the mode and with the parameters the batch began with. -/
theorem statusBatchPollsEightInOrder : Obligations.StatusBatchPollsEightInOrder := by
  intro target dev s hinv hempty hdlo hdhi frame
  have hruns : ∀ ch ∈ batchChannels, ∀ s₁ : State, s₁.Ready s.strict s.cfg →
      CycleRuns s.strict s.cfg (statusCycle target dev ch) (decodeRead s.strict) (frame ch) s₁ := by
    intro ch hmem s₁ hs₁
    have hdev := deviceInRange_iff.2 ⟨hdlo, hdhi⟩
    have hch := channelValid_of_mem_batchChannels ch hmem
    cases target with
    | inputs => exact inputRead_runs hdev hch hs₁
    | outputs => exact outputRead_runs hdev hch hs₁
  have hs := hinv.ready hempty
  exact ⟨fun _ _ hlen => batchOver_fixedReplies hruns hs hlen, batchOver_anyReplies hruns hs⟩

/-- Settles O59: each cycle of the write batch is a relay write. -/
theorem relayBatchWritesEightInOrder : Obligations.RelayBatchWritesEightInOrder := by
  intro dev act s hinv hempty hdlo hdhi hact frame
  have hruns : ∀ ch ∈ batchChannels, ∀ s₁ : State, s₁.Ready s.strict s.cfg →
      CycleRuns s.strict s.cfg (relayWrite dev ch act) decodeWrite (frame ch) s₁ := fun ch hmem _ hs₁ =>
    relayWrite_runs (deviceInRange_iff.2 ⟨hdlo, hdhi⟩) (channelValid_of_mem_batchChannels ch hmem) hs₁ hact
  have hs := hinv.ready hempty
  exact ⟨fun _ _ hlen => batchOver_fixedReplies hruns hs hlen, batchOver_anyReplies hruns hs⟩

end Sys2Proof.Machine
end

section
/-! SUPPORT. Family 60_exceptions.md: the one response of an operation with what an error leaves changed (R247, R249), and the answer to an
illegal command word (R243(a)). -/

namespace Sys2Proof.Machine

/-! ### One response, and what an error changes (R247, R249) -/

/-- The frame rows are no operations of the block: no command word decodes to one (30_encoding.md R92). -/
theorem not_isFrameRow_of_decode {w : CmdWord} {i : Instr} (h : decode (.cw32 w) = .instr i) : ¬ IsFrameRow i := by
  have henc := decode_eq_instr_iff.1 h
  rintro (⟨d, n, lo, hi, rfl⟩ | ⟨d, n, lo, hi, rfl⟩ | ⟨d, n, lo, hi, rfl⟩ | ⟨d, n, lo, hi, rfl⟩) <;> cases henc

/-- Every effect but an Exchange delivers one legal response; one with an error STATUS comes alone, or after a build has cleared TXV. -/
theorem Effect.delivers_one {i : Instr} {s t : State} (h : Effect i s t) (hblock : ¬ IsFrameRow i) :
    ∃ r, t.responses = s.responses ++ [r] ∧ legalResponse r = true ∧
      (statusField r = 0 ∨ t = s.deliver r ∨ (t = (s.setTxv false).deliver r ∧ IsBuild i)) := by
  cases h with
  | answered r hr => exact ⟨r, rfl, hr, .inr (.inl rfl)⟩
  | buildFailed e hi => exact ⟨_, rfl, legalResponse_raised e, .inr (.inr ⟨rfl, hi⟩)⟩
  | exchanged f hi => exact absurd hi hblock
  | _ => exact ⟨_, rfl, legalResponse_ok _, .inl (statusField_pack _ _)⟩

/-- Settles O51: of the effects, only a response alone and a failed build can carry an error STATUS. -/
theorem errorsArePrecise : Obligations.ErrorsArePrecise := by
  intro w i s t hdec hexec
  obtain ⟨r, hresp, hlegal, hok | rfl | ⟨rfl, hbuild⟩⟩ := (exec_effect hexec).delivers_one (not_isFrameRow_of_decode hdec)
  · exact ⟨r, hresp, hlegal, fun herr => absurd hok herr⟩
  · exact ⟨r, hresp, hlegal, fun _ => .inl rfl⟩
  · exact ⟨r, hresp, hlegal, fun _ => .inr ⟨rfl, hbuild⟩⟩

/-! ### Illegal command words (R243(a), 30_encoding.md R94) -/

/-- A presented word is taken from the inputs and run (10_state.md R21). -/
theorem step_of_present {s : State} {w : Wire} {rest : List Input} (h : s.inputs = .present w :: rest) :
    step s = runWire w { s with inputs := rest } := by
  simp only [step, runNext, State.taken, h, List.tail_cons]

theorem runWire_of_illegal {w : Wire} (h : decode w = .reject .illegalCommand) (s : State) :
    runWire w s = .next (raise .illegalCommand s) := by
  simp only [runWire, h]

/-- Settles O42: the word is taken, rejected by the decoder, and raises IllegalCommand. -/
theorem illegalWordAnsweredWithoutEffect : Obligations.IllegalWordAnsweredWithoutEffect := by
  intro s w rest hin hdec
  rw [step_of_present hin, runWire_of_illegal hdec, raise_illegalCommand]
  rfl

end Sys2Proof.Machine
end

section
/-! SUPPORT. Family 70_reset_and_hazards.md: which steps cannot stop (R300), a second decode (R292(a)), reset between operations and during
one (R280, R281), and a command whose build raises (R293). -/

namespace Sys2Proof.Machine

/-! ### Words and instructions that answer a next state (R300) -/

/-- Only a device address (43_encoder.md R169) and a full response buffer (10_state.md R26) can stop an instruction. -/
theorem exec_answers {i : Instr} {s : State} (hwf : i.wf = true) (hlen : s.rxlen.toNat ≤ rxbSize) : ∃ t, exec i s = .next t := by
  cases i with
  | bldRly | bldDin | bldOst => exact ⟨_, buildChecked_of_inRange hwf _ s⟩
  | txRd k =>
    cases htxv : s.txv with
    | true => exact ⟨_, exec_txRd_frame htxv k⟩
    | false => exact ⟨_, exec_txRd_noFrame htxv k⟩
  | rxPush | decRly | decDin | decOst => exact ⟨_, rxChecked_of_le hlen _⟩
  | _ => exact ⟨_, rfl⟩

/-- The words that do not stop the machine: well-formed instructions while RXLEN is in its range, and illegal command words. -/
def Runnable (w : Wire) (s : State) : Prop :=
  (∃ i, decode w = .instr i ∧ i.wf = true ∧ s.rxlen.toNat ≤ rxbSize) ∨ decode w = .reject .illegalCommand

theorem Runnable.answers {w : Wire} {s : State} (h : Runnable w s) : ∃ t, runWire w s = .next t := by
  obtain ⟨i, hdec, hwf, hlen⟩ | hdec := h
  · simpa only [runWire, hdec] using exec_answers hwf hlen
  · exact ⟨_, runWire_of_illegal hdec s⟩

/-- A row of the decoder rejects nothing itself. -/
theorem later_of_row {c : Prop} [Decidable c] {d : Decoded} {i : Instr} {r : Reject} (h : (if c then .instr i else d) = .reject r) :
    d = .reject r := by
  split at h
  · cases h
  · exact h

/-- A command word is rejected in one way only: by the check before the rows or by the end after them (60_exceptions.md R243). -/
theorem decodeFields_reject {op : BitVec 4} {rsv kind : BitVec 2} {dev ch arg : Byte} {r : Reject}
    (h : decodeFields op rsv kind dev ch arg = .reject r) : r = .illegalCommand := by
  by_cases hrsv : rsv = 0
  · rw [decodeFields, if_neg (not_not.2 hrsv)] at h
    repeat replace h := later_of_row h
    cases h; rfl
  · rw [decodeFields_reserved kind dev ch arg hrsv] at h
    cases h; rfl

/-- A frame the block can emit is read as a well-formed row (30_encoding.md R92). -/
theorem wf_of_emittedFrame {offset : BitVec 1} {f : FrameWord} (h : emittedFrame offset ((List.range 8).map (frameByte f)) = true) :
    ∃ i, decode (.rqf64 f) = .instr i ∧ i.wf = true := by
  have hbytes : (List.range 8).map (frameByte f) = [frameByte f 0, frameByte f 1, frameByte f 2, frameByte f 3, frameByte f 4,
      frameByte f 5, frameByte f 6, frameByte f 7] := rfl
  simp only [hbytes, emittedFrame, packFrame_bytes] at h
  split at h
  · next hdec => exact ⟨_, hdec, (Bool.and_eq_true_iff.1 h).1⟩
  · next hdec => exact ⟨_, hdec, h⟩
  · cases h

/-- What the duties say of a word: a build has its device address in range, and a frame on the bus is the one TXF holds (R293, R294), which
the invariant says the block built. -/
theorem State.Inv.runnable_of_wireDuty {w : Wire} {s : State} (hinv : s.Inv) (hduty : wireDuty w s = true) : Runnable w s := by
  cases w with
  | cw32 w =>
    cases hdec : decode (.cw32 w) with
    | instr i => exact .inl ⟨i, hdec, by simpa only [wireDuty, hdec] using hduty, hinv.rxlen_le⟩
    | reject r => exact .inr (decodeFields_reject hdec ▸ hdec)
  | rqf64 f =>
    simp only [wireDuty, Bool.and_eq_true, beq_iff_eq] at hduty
    obtain ⟨htxv, hsent⟩ := hduty
    have hemitted := hinv.frame_built htxv
    rw [← hsent] at hemitted
    obtain ⟨i, hdec, hwf⟩ := wf_of_emittedFrame hemitted
    exact .inl ⟨i, hdec, hwf, hinv.rxlen_le⟩

/-! ### One step, by what the host presents -/

section
variable {s : State} {rest : List Input}

/-- `rst` between operations (R280). -/
theorem step_of_reset (h : s.inputs = .reset :: rest) : step s = .next { s.blockReset with inputs := rest } := by
  simp only [step, runNext, State.taken, State.blockReset, h, List.tail_cons]

/-- `rst` during the operation of a word that does not stop the machine (R281). -/
theorem step_of_presentThenReset {w : CmdWord} (h : s.inputs = .presentThenReset w :: rest) (hrun : Runnable (.cw32 w) s) :
    step s = .next { s.blockReset with inputs := rest } := by
  obtain ⟨t, ht⟩ := Runnable.answers (s := { s with inputs := rest }) hrun
  simp only [step, runNext, runCutShort, State.taken, State.blockReset, h, List.tail_cons, ht]

end

/-- Settles O49: the host's duties make each word it presents one that does not stop the machine, with or without `rst` during it. -/
theorem dutifulHostNeverStops : Obligations.DutifulHostNeverStops := by
  intro s hinv hduty
  unfold State.hostDuty at hduty
  split at hduty
  · next hin => exact ⟨s, by simp only [step, runNext, hin]⟩
  · next w rest hin =>
    rw [step_of_present hin]
    exact Runnable.answers (hinv.runnable_of_wireDuty hduty)
  · next rest hin => exact ⟨_, step_of_reset hin⟩
  · next w rest hin => exact ⟨_, step_of_presentThenReset hin (hinv.runnable_of_wireDuty hduty)⟩

/-- Settles O44: each element has its reset value, and the records of host and bus are not the block's. -/
theorem resetInputResetsBlock : Obligations.ResetInputResetsBlock := fun _ _ hin =>
  ⟨_, step_of_reset hin, rfl, rfl, rfl, rfl, rfl, rfl, rfl, rfl⟩

/-- Settles O45: the word's own next state is dropped, so that the step leaves what `rst` alone leaves. -/
theorem resetAbandonsOperation : Obligations.ResetAbandonsOperation := fun _ _ _ hin hrun =>
  ⟨_, step_of_presentThenReset hin hrun, rfl, rfl, rfl, rfl, rfl, rfl, rfl, rfl, rfl, rfl, step_of_reset rfl⟩

/-! ### A decode straight after a decode (R292(a), 20_memory.md R57) -/

section
variable {d : Instr} {s : State} (hd : d ∈ [Instr.decRly, .decDin, .decOst])
include hd

/-- A decode consumes the response. -/
theorem rxlen_of_decode {t : State} (h : exec d s = .next t) : t.rxlen = 0 := by
  simp only [List.mem_cons, List.not_mem_nil, or_false] at hd
  obtain rfl | rfl | rfl := hd
  all_goals
    obtain ⟨-, rfl⟩ := rxChecked_next h
    rfl

/-- With no response held every decode times out, and writes nothing. -/
theorem exec_decode_empty (hempty : s.rxlen = 0) : exec d s = .next { s with responses := s.responses ++ [0x6] } := by
  have hlen : s.rxlen.toNat ≤ 256 := by simp [hempty]
  have hkept : { s with rxlen := 0 } = s := by rw [← hempty]
  have hcrc : decodedCrc s = s.crc := if_neg (by simp [hempty, rxMinDecodable])
  have hread : decodeReadOp s = { s with responses := s.responses ++ [0x6] } := by
    rw [decodeReadOp_eq, readResponse_eq, hcrc, if_pos (by simp [hempty]), ← hempty]
  simp only [List.mem_cons, List.not_mem_nil, or_false] at hd
  obtain rfl | rfl | rfl := hd
  · rw [exec_decRly hlen, if_pos hempty, ← hempty]
  · exact (exec_read hlen hread).1
  · exact (exec_read hlen hread).2

end

/-- Settles O31: the first decode leaves no response for the second. -/
theorem secondDecodeTimesOut : Obligations.SecondDecodeTimesOut := fun _ _ _ _ hd hd' hexec =>
  exec_decode_empty hd' (rxlen_of_decode hd hexec)

/-! ### A command whose build raises (R293, 46_commands.md R214, R220) -/

/-- The command ends with the build: no readout, no Exchange, no decode. -/
theorem busCycle_failed {bld dec : Instr} {s : State} {r : RspWord} {e : OpError} (herr : errorOf r = some e)
    (hbld : exec bld s = .next { s with txv := false, responses := s.responses ++ [r] }) :
    busCycle bld dec s = .next ({ s with txv := false, responses := s.responses ++ [r] }, .failed e) := by
  have hlast : State.lastResponse { s with txv := false, responses := s.responses ++ [r] } = r :=
    lastResponse_deliver (s.setTxv false) r
  simp only [busCycle, issue_of_exec hbld, hlast, andThen_next, herr]

/-- A failed cycle ends its batch. -/
theorem batchOver_failed {cycle : Byte → State → Host.Outcome (State × CommandResult) Fault Refusal} {ch : Byte} {s t : State}
    {e : OpError} (h : cycle ch s = .next (t, .failed e)) (chs : List Byte) :
    batchOver cycle (ch :: chs) s = .next (t, .failed e) := by
  simp only [batchOver, h, andThen_next]

/-- Settles O57: the failed builds are O16's; the batch with no action fails at channel 1. -/
theorem buildErrorEndsCommandBeforeIO : Obligations.BuildErrorEndsCommandBeforeIO := by
  intro dev ch act s hdlo hdhi
  refine ⟨fun hch => ?_, fun hon hoff => ?_⟩
  · obtain ⟨hrly, hdin, hostat⟩ := (failedBuildClearsOnlyFrameValid dev ch act s hdlo hdhi).1 hch
    exact ⟨busCycle_failed rfl hrly, busCycle_failed rfl hdin, busCycle_failed rfl hostat⟩
  · have hrelay (c : Byte) (hlo : 1 ≤ c.toNat) (hhi : c.toNat ≤ 8) : relayWrite dev c act s =
        .next ({ s with txv := false, responses := s.responses ++ [0x2000000000000000] }, .failed .invalidAction) :=
      busCycle_failed rfl ((failedBuildClearsOnlyFrameValid dev c act s hdlo hdhi).2 hlo hhi hon hoff)
    exact ⟨hrelay ch, batchOver_failed (cycle := fun c => relayWrite dev c act) (hrelay 1 (by decide) (by decide)) _⟩

end Sys2Proof.Machine
end

section
/-! SUPPORT. The statements outside the families: a TransportError in a batch (46_commands.md R220), the stops of the model (logs 7, 10), the
step by what the host presents (10_state.md R21) and the request-frame rows as Exchanges (30_encoding.md R92). -/

namespace Sys2Proof.Machine

/-! ### A TransportError in a batch (46_commands.md R220) -/

theorem nextReply_transportError {s : State} {rest : List Reply} (hreplies : s.replies = .transportError :: rest) :
    s.nextReply = .transportError := by
  simp only [State.nextReply, hreplies, Reply.clip]

section
variable {strict : Bool} {cfg : Config} {cycle : Byte → State → Host.Outcome (State × CommandResult) Fault Refusal}
  {d : List Byte → DecResult}

/-- A cycle whose Exchange fails ends its batch: the channels after it are not run. -/
theorem batchOver_transportError {s : State} {ch : Byte} {f : List Byte} {rest : List Reply} (chs : List Byte)
    (hrun : CycleRuns strict cfg (cycle ch) d f s) (hreplies : s.replies = .transportError :: rest) :
    ∃ t, batchOver cycle (ch :: chs) s = .next (t, .transportError) ∧ t.replies = rest ∧ t.rxlen = 0 ∧
      t.bus.length = s.bus.length + 1 := by
  obtain ⟨t, hcycle, hready, htail, hbus⟩ := hrun
  rw [nextReply_transportError hreplies] at hcycle
  exact ⟨t, by simp only [batchOver, hcycle, cycleResult, andThen_next], by rw [htail, hreplies, List.tail_cons], hready.rxlen_zero,
    by simp [hbus]⟩

/-- A batch whose scenario fixes fewer replies than channels and then a TransportError ends at the cycle after those replies. -/
theorem batchOver_endsAtTransportError {chs : List Byte} {raws : List (List Byte)} {rest : List Reply} {s : State}
    (hruns : ∀ ch ∈ chs, ∀ s : State, s.Ready strict cfg → ∃ f, CycleRuns strict cfg (cycle ch) d f s)
    (hs : s.Ready strict cfg) (hlen : raws.length < chs.length) (hbound : ∀ raw ∈ raws, raw.length ≤ 256)
    (hreplies : s.replies = raws.map Reply.bytes ++ .transportError :: rest) :
    ∃ t, batchOver cycle chs s = .next (t, .transportError) ∧ t.replies = rest ∧ t.rxlen = 0 ∧
      t.bus.length = s.bus.length + raws.length + 1 := by
  induction chs generalizing raws s with
  | nil => exact absurd hlen (Nat.not_lt_zero _)
  | cons ch chs ih =>
    rw [List.forall_mem_cons] at hruns
    obtain ⟨f, hrun⟩ := hruns.1 s hs
    cases raws with
    | nil => exact batchOver_transportError chs hrun hreplies
    | cons raw raws =>
      rw [List.forall_mem_cons] at hbound
      obtain ⟨s₁, hs₁, htail, hbus, hnext⟩ :=
        batchOver_bytes (frame := fun _ => f) chs hrun (nextReply_bytes hbound.1 hreplies)
      obtain ⟨t, hrest, hleft, hempty, hcount⟩ :=
        ih hruns.2 hs₁ (Nat.lt_of_succ_lt_succ hlen) hbound.2 (by rw [htail, hreplies]; rfl)
      refine ⟨t, hnext t _ hrest, hleft, hempty, ?_⟩
      rw [hcount, hbus, List.length_append, List.length_singleton, List.length_cons]
      omega

end

/-- Settles O60: each cycle of either batch makes one Exchange, and the first that fails is the last. -/
theorem transportErrorEndsBatch : Obligations.TransportErrorEndsBatch := by
  intro dev s raws rest hinv hempty hdlo hdhi hlen hbound hreplies
  have hdev := deviceInRange_iff.2 ⟨hdlo, hdhi⟩
  have hs := hinv.ready hempty
  refine ⟨fun target => ?_, fun act hact => ?_⟩
  · refine batchOver_endsAtTransportError (d := decodeRead s.strict) (fun ch hmem s₁ hs₁ => ?_) hs hlen hbound hreplies
    have hch := channelValid_of_mem_batchChannels ch hmem
    cases target with
    | inputs => exact ⟨_, inputRead_runs hdev hch hs₁⟩
    | outputs => exact ⟨_, outputRead_runs hdev hch hs₁⟩
  · exact batchOver_endsAtTransportError
      (fun ch hmem _ hs₁ => ⟨_, relayWrite_runs hdev (channelValid_of_mem_batchChannels ch hmem) hs₁ hact⟩) hs hlen hbound hreplies

/-! ### RXLEN out of its range (log 10) -/

theorem rxChecked_of_gt {s : State} (h : rxbSize < s.rxlen.toNat) (s' : State) : rxChecked s s' = .fault .rxbOffsetOutside :=
  if_neg (Nat.not_le.2 h)

/-- Settles O25: the four operations are under the one check of RXLEN. -/
theorem stopsBeyondResponseBuffer : Obligations.StopsBeyondResponseBuffer := fun _ _ hlen =>
  ⟨rxChecked_of_gt hlen _, rxChecked_of_gt hlen _, rxChecked_of_gt hlen _, rxChecked_of_gt hlen _⟩

/-! ### Sample words (95_test_vectors.md) -/

/-- Settles O40: the decoder computes each of the words. -/
theorem sampleWordsDecode : Obligations.SampleWordsDecode := by
  unfold Obligations.SampleWordsDecode
  decide

/-! ### The step, by what the host presents (10_state.md R21, 20_memory.md R62; logs 3, 5, 7) -/

theorem step_of_noInput {s : State} (h : s.inputs = []) : step s = .next s := by
  simp only [step, runNext, h]

theorem runWire_of_instr {w : Wire} {i : Instr} (h : decode w = .instr i) (s : State) : runWire w s = exec i s := by
  simp only [runWire, h]

theorem runWire_of_notRequestFrame {w : Wire} (h : decode w = .reject .notRequestFrame) (s : State) :
    runWire w s = .refused .notRequestFrame := by
  simp only [runWire, h]

/-- Eight bytes are rejected in one way only: by the end after the four shapes (30_encoding.md R92). -/
theorem decodeFrameFields_reject {dev fc addrHi : Byte} {addrTop n : BitVec 4} {dataHi dataLo lo hi : Byte} {r : Reject}
    (h : decodeFrameFields dev fc addrHi addrTop n dataHi dataLo lo hi = .reject r) : r = .notRequestFrame := by
  rw [decodeFrameFields] at h
  repeat replace h := later_of_row h
  cases h; rfl

/-- Settles O41: the word is taken, and runs as the instruction it decodes to. -/
theorem stepRunsPresentedInstruction : Obligations.StepRunsPresentedInstruction := fun _ _ _ _ hin hdec =>
  (step_of_present hin).trans (runWire_of_instr hdec _)

/-- Settles O43: no input runs nothing, and a rejected frame has the one reason that is refused. -/
theorem stepIdlesAndRefusesOtherFrames : Obligations.StepIdlesAndRefusesOtherFrames := by
  refine ⟨fun _ => step_of_noInput, fun s f rest r hin hdec => ?_⟩
  obtain rfl := decodeFrameFields_reject hdec
  exact (step_of_present hin).trans (runWire_of_notRequestFrame hdec _)

/-! ### The request-frame rows (30_encoding.md R92, 46_commands.md R212) -/

/-- Byte 3 of a frame from its nibbles, as the number the shapes write. -/
theorem addrByte_zero_top : ∀ n : BitVec 4, (0#4 ++ n : Byte) = n.setWidth 8 := by decide

theorem addrByte_eight_top : ∀ n : BitVec 4, (8#4 ++ n : Byte) = 0x80 + n.setWidth 8 := by decide

/-- Settles O53: each row is the Exchange of its eight bytes. -/
theorem frameRowsAreExchanges : Obligations.FrameRowsAreExchanges := by
  intro dev n lo hi s
  rw [← addrByte_eight_top n, ← addrByte_zero_top n]
  exact ⟨rfl, rfl, rfl, rfl⟩

end Sys2Proof.Machine
end
